-- ==== Sys2Proof/Word.lean ====
section
/-! DEFINITION. The words of the Plurant P2406: the bit-vector widths the manual names. -/

namespace Sys2Proof

/-- One byte of a record, of a management frame or of the stacked DRAM. -/
abbrev Byte := BitVec 8

/-- A value of the microsecond time counter, or a deadline measured against it (R143, R144). -/
abbrev Stamp := BitVec 32

/-- A 32-bit frame number of one source (R6). -/
abbrev FrameNo := BitVec 32

/-- A 48-bit presentation stamp, carried through unchanged (R5). -/
abbrev Pts := BitVec 48

/-- A 16-bit statistic counter (Conventions, "Counters"). -/
abbrev Count16 := BitVec 16

/-- A set of tile indices 0 to 639: bit t stands for tile t (R66). -/
abbrev TileSet := BitVec 640

end Sys2Proof
end

