-- ==== Sys2Proof/Syntax.lean ====
section
/-! DEFINITION. The commands of the part: one constructor of `Instr` per row of spec/opcode_table.json.

The part is a block: a command is a management frame, an event on a lane's link, the execution of the request
that stands at the head of a lane's queue, the end of a DRAM burst, the reaching of a deadline, or an edge of an
input line. A request's own fields lie in the record that RECORD_RECEIVED brought into the lane's queue, so a
request row names its lane alone (notes/assumptions/3.md). -/

namespace Sys2Proof

/-- A picture source; ingest lane IL0 writes source 0 and IL1 source 1 (00_scope.md, "Sources"),
so a source also names its ingest lane. -/
inductive Src where
  | s0
  | s1
  deriving DecidableEq, Repr

/-- A rendition lane, RL0 to RL3. -/
inductive RLane where
  | r0
  | r1
  | r2
  | r3
  deriving DecidableEq, Repr

/-- One of the six serial lanes (00_scope.md, "Lane numbers"). -/
inductive Lane where
  | il (x : Src)
  | rl (l : RLane)
  deriving DecidableEq, Repr

/-- A marker output line, M0 or M1 (R168). -/
inductive MarkerPin where
  | m0
  | m1
  deriving DecidableEq, Repr

/-- The kind of an edge of the filtered cue input (R151). -/
inductive CueEdge where
  | rising
  | falling
  deriving DecidableEq, Repr

/-- How much of a record's sending one TRANSMIT_RECORD step covers.
`whole` is the row as the table gives it; `start` and `finish` split it, so that a reset can meet a record
partly sent (R126, R172, R178; notes/assumptions/4.md). -/
inductive SendPart where
  | whole
  | start
  | finish
  deriving DecidableEq, Repr

/-- What of a management frame one MANAGEMENT_FRAME_CUT_OFF step covers. `whole` is the row as the table gives it: CSN falls, the
staged bytes are clocked in and CSN rises. `fall`, `byte` and `rise` are the edges of CSN and the clocking of one byte - which may
complete a command and have it executed - for which the table has no row of their own (R186 to R188; notes/assumptions/8.md). -/
inductive FrameMove where
  | whole (staged : List Byte)
  | fall
  | byte (b : Byte)
  | rise
  deriving DecidableEq, Repr

/-- The commands, in the order of spec/opcode_table.json.
A management command carries its payload bytes as clocked in (R186), a record its whole run of bytes (R173). -/
inductive Instr where
  | powerOnReset
  | boardReset
  | setPlan (payload : List Byte)
  | setDetect (payload : List Byte)
  | setSchedule (payload : List Byte)
  | setRoute (payload : List Byte)
  | setCue (payload : List Byte)
  | setCadence (payload : List Byte)
  | setChapters (payload : List Byte)
  | setLaneLimits (payload : List Byte)
  | attrWrite (payload : List Byte)
  | attrRead (payload : List Byte)
  | badgeWrite (payload : List Byte)
  | readStatus (payload : List Byte)
  | readCounters (payload : List Byte)
  | popChapters (payload : List Byte)
  | readMarkers (payload : List Byte)
  | readResetCause (payload : List Byte)
  | clearResetCause (payload : List Byte)
  | softReset (payload : List Byte)
  | laneReset (payload : List Byte)
  | unknownCommand (code : Byte) (payload : List Byte)
  | managementFrameCutOff (move : FrameMove)
  | linkTrainingComplete (lane : Lane)
  | linkLoss (lane : Lane)
  | recordReceived (lane : Lane) (bytes : List Byte)
  | malformedRequest (lane : Lane)
  | openFrame (lane : Lane)
  | putRows (lane : Lane)
  | sealFrame (lane : Lane)
  | abandonFrame (lane : Lane)
  | bind (lane : Lane)
  | unbind (lane : Lane)
  | claimNext (lane : Lane)
  | claimLatest (lane : Lane)
  | claimNumber (lane : Lane)
  | release (lane : Lane)
  | fetch (lane : Lane)
  | fetchMaskFrame (lane : Lane)
  | fetchMaskSince (lane : Lane)
  | subscribe (lane : Lane)
  | openWaitDeadline (x : Src)
  | claimWaitDeadline (l : RLane)
  | ingestBurstComplete
  | detectorRowBurstComplete
  | bandBurstComplete
  | transmitRecord (lane : Lane) (part : SendPart)
  | periodEvent
  | refreshComplete
  | cadenceExpiry (x : Src)
  | cueEdge (edge : CueEdge)
  | spacingHoldEnd
  | cueAgeExpiry
  | markerPulseEnd (pin : MarkerPin)
  | rstnAsserted
  deriving DecidableEq, Repr

end Sys2Proof
end

