-- ==== Sys2Proof/Decode.lean ====
section
/-! DEFINITION. The command that a word spells by the bits of spec/opcode_table.json.
No row of the table has bits ("fields" is empty in every row and there is no "fixed"), so no word spells a command.
Beside it stand the facts of the management frame that say which frame is a command, and which command it is (R187, R189). -/

namespace Sys2Proof

/-- The command a table word spells: none, since the table gives no row any bits. -/
def decodeTableWord (_nbits _w : Nat) : Option Instr := none

/-- The command codes of the command table (R189). -/
def commandCodes : List Nat :=
  [1, 2, 3, 4, 5, 6, 7, 8, 16, 17, 18, 32, 33, 34, 35, 36, 37, 48, 49]

/-- The command of a frame is complete once the buffer holds L + 2 bytes, L being its second byte (R187). -/
def frameComplete (staged : List Byte) : Bool :=
  match staged with
  | _ :: len :: rest => decide (len.toNat ≤ rest.length)
  | _ => false

/-- The command row that the bytes of a complete frame spell: code, length, payload (R186, R189). A code outside the table spells an
unknown command. -/
def frameCommand (staged : List Byte) : Option Instr :=
  if !frameComplete staged then none
  else match staged with
  | code :: _ :: p =>
    some (match code.toNat with
    | 1 => .setPlan p
    | 2 => .setDetect p
    | 3 => .setSchedule p
    | 4 => .setRoute p
    | 5 => .setCue p
    | 6 => .setCadence p
    | 7 => .setChapters p
    | 8 => .setLaneLimits p
    | 16 => .attrWrite p
    | 17 => .attrRead p
    | 18 => .badgeWrite p
    | 32 => .readStatus p
    | 33 => .readCounters p
    | 34 => .popChapters p
    | 35 => .readMarkers p
    | 36 => .readResetCause p
    | 37 => .clearResetCause p
    | 48 => .softReset p
    | 49 => .laneReset p
    | _ => .unknownCommand code p)
  | _ => none

end Sys2Proof
end

