-- ==== Sys2Proof/Config.lean ====
section
/-! DEFINITION. The constants of the part, each with the rule that states it.
No rule of the manual leaves a result value open, so there is no free value here;
the one value the manual does not state is what a DRAM byte reads as before anything wrote it. -/

namespace Sys2Proof.Config

/-- The stacked DRAM holds 128 MiB (00_scope.md, R1). -/
def dramBytes : Nat := 134217728

/-- What a DRAM byte that nothing has written reads as.
DESIGN CHOICE (unsafe): R195 says the DRAM keeps whatever bytes it held, see notes/assumptions/2.md. -/
def dramUnwritten : Byte := 0

/-- The bytes of one tile over the three planes (00_scope.md, "Tile geometry"). -/
def tileBytes : Nat := 6144

/-- The tile bits of a change mask (R66). -/
def tileCount : Nat := 640

/-- Requests a lane's queue may hold (R175). -/
def queueDepth : Nat := 4

/-- Notices a rendition lane's queue may hold (R104). -/
def noticeDepth : Nat := 8

/-- Entries of the management marker queue (R166). -/
def markerDepth : Nat := 16

/-- Records of the cue FIFO (R152). -/
def cueDepth : Nat := 8

/-- Records of the chapter log (R160). -/
def logDepth : Nat := 64

/-- Entries of a rendition lane's hold list (R95). -/
def holdDepth : Nat := 2

/-- Consecutive bad records that reset a lane (R174). -/
def badRunLimit : Nat := 4

/-- The longest request payload the part takes (R173). -/
def maxPayload : Nat := 196609

/-- The greatest sum of the seven allowances (R139). -/
def allowanceTotal : Nat := 12000

/-- Microseconds between period events (R133, R145). -/
def periodMicros : Nat := 1000

/-- Service units of DRAM work of one refresh (R133). -/
def refreshUnits : Nat := 500

/-- Service units the DRAM carries per microsecond (R129). -/
def unitsPerMicro : Nat := 64

/-- The age of a cue record, in microseconds (R154). -/
def cueAge : Nat := 1073741824

/-- Records or entries one POP_CHAPTERS or READ_MARKERS may return (R162, R167). -/
def popLimit : Nat := 16

end Sys2Proof.Config
end

