-- ==== Sys2Proof/Machine/State.lean ====
section
/-! DEFINITION. The state of the part as plain data, block by block as 00_scope.md's block table owns it, its
values after reset, and the reasons a step can stop. -/

namespace Sys2Proof.Machine

/-- One value per source (and so per ingest lane). -/
structure PerSource (α : Type) where
  s0 : α
  s1 : α
  deriving DecidableEq, Repr

/-- One value per rendition lane. -/
structure PerRL (α : Type) where
  r0 : α
  r1 : α
  r2 : α
  r3 : α
  deriving DecidableEq, Repr

/-- One value per requester of the Memory Scheduler (R130). -/
structure PerReq (α : Type) where
  il : PerSource α
  det : α
  rl : PerRL α
  deriving DecidableEq, Repr

/-- The seven requesters of the Memory Scheduler (R130). -/
inductive Requester where
  | il (x : Src)
  | det
  | rl (l : RLane)
  deriving DecidableEq, Repr

/-- The eighteen answer codes, in code order (R177). -/
inductive AnswerCode where
  | ok
  | queueFull
  | wrongLane
  | noPlan
  | badArg
  | order
  | poolFull
  | notFilling
  | incomplete
  | notBound
  | busy
  | holdLimit
  | notHeld
  | noFrame
  | gone
  | notYet
  | windowCost
  | aborted
  deriving DecidableEq, Repr

/-! ### The frame pool (chapter 1) -/

/-- One source's part of a pool plan (R1). -/
structure SourcePlan where
  enabled : Bool
  cols : Nat
  rows : Nat
  quota : Nat
  deriving DecidableEq, Repr

/-- A pool plan: the slot count S and the two sources' parts (R1). -/
structure Plan where
  slots : Nat
  source : PerSource SourcePlan
  deriving DecidableEq, Repr

/-- The detector's verdict on a frame (R65). -/
inductive FrameClass where
  | hold
  | patch
  | scene
  deriving DecidableEq, Repr

/-- The flags of a frame (R66). -/
structure FrameFlags where
  first : Bool
  cue : Bool
  chapter : Bool
  attr : Bool
  deriving DecidableEq, Repr

/-- What a slot record holds of a frame from its seal on (R5, R9). -/
structure SealedFrame where
  source : Src
  number : FrameNo
  pts : Pts
  arrival : Stamp
  deriving DecidableEq, Repr

/-- What the analysis adds to a slot record (R5, R66). -/
structure Verdict where
  cls : FrameClass
  flags : FrameFlags
  changed : Nat
  active : Nat
  mask : TileSet
  deriving DecidableEq, Repr

/-- The six states of a slot as they are reported (R5, R189). -/
inductive SlotState where
  | free
  | filling
  | queued
  | analysing
  | current
  | stale
  deriving DecidableEq, Repr

/-- A slot record with exactly the fields that R5's table gives its state: a FREE slot carries nothing, and only
CURRENT and STALE slots carry a verdict, a hold count and an owed set. -/
inductive Slot where
  | free
  | filling (source : Src) (pts : Pts) (rows : Nat)
  | queued (frame : SealedFrame)
  | analysing (frame : SealedFrame)
  | analysed (current : Bool) (frame : SealedFrame) (verdict : Verdict) (holds : Nat) (owed : PerRL Bool)
  deriving DecidableEq, Repr

/-- An entry of the slot wait list; its source names its ingest lane (R22). -/
structure WaitEntry where
  source : Src
  pts : Pts
  deadline : Stamp
  deriving DecidableEq, Repr

/-- The Frame Pool Controller's state (R1, R5, R6, R22, R25). -/
structure Fpc where
  plan : Option Plan
  slots : List Slot
  current : PerSource (Option Nat)
  nextFrame : PerSource FrameNo
  waitList : List WaitEntry
  poolLow : Nat
  deriving DecidableEq, Repr

/-! ### Records, notices and the link of a lane (chapters 5 and 10) -/

/-- The kinds of event a marker channel may carry (R163, R179). -/
inductive EventKind where
  | scene
  | chapter
  | stalled
  | cue
  | evict
  | poolLow
  deriving DecidableEq, Repr

/-- An event with the source and frame number it has (R164). -/
structure Event where
  kind : EventKind
  source : Option Src
  frame : Option FrameNo
  deriving DecidableEq, Repr

/-- A notice as it stands in a notice queue (R104). -/
inductive Notice where
  | ready (source : Src) (frame : FrameNo) (cls : FrameClass) (flags : FrameFlags)
  | repeated (source : Src) (frame : FrameNo) (count : Count16)
  | lost (source : Src) (frame : FrameNo)
  | marker (channel : Nat) (event : Event)
  deriving DecidableEq, Repr

/-- A request as its record brought it: kind byte, tag and payload (R175, R180). -/
structure Request where
  kind : Byte
  tag : Byte
  payload : List Byte
  deriving DecidableEq, Repr

/-- An answer: the tag and kind byte of its request, its code and its body (R182). -/
structure Answer where
  tag : Byte
  kind : Byte
  code : AnswerCode
  body : List Byte
  deriving DecidableEq, Repr

/-- A finished band with its record fields (R119, R121). -/
structure Band where
  tag : Byte
  slot : Nat
  index : Nat
  data : List Byte
  deriving DecidableEq, Repr

/-- An outgoing record that waits behind the notices, in the order it was produced (R90):
an answer, or the place of the band in the lane's band buffer. -/
inductive Outgoing where
  | answer (a : Answer)
  | bandData
  deriving DecidableEq, Repr

/-- A record as the transmitter sends it (R90). -/
inductive OutRecord where
  | answer (a : Answer)
  | band (b : Band)
  | notice (overrun : Bool) (n : Notice)
  deriving DecidableEq, Repr

/-- A record partly sent; `live` says that a band record still belongs to the FETCH that made it (R126). -/
structure Sending where
  record : OutRecord
  live : Bool
  deriving DecidableEq, Repr

/-- What every lane keeps at its link (R171 to R175). `ahead` is how many of the waiting outgoing records leave before any notice:
those that stood there at a soft reset, its ABORTED answers among them (R178). `lastSent` is the MODEL's own view of the lane's
outgoing pair: the bytes of the record last sent in full. -/
structure Link where
  up : Bool
  queue : List Request
  outgoing : List Outgoing
  ahead : Nat
  sending : Option Sending
  lastSent : List Byte
  errors : Count16
  badRun : Nat
  deriving DecidableEq, Repr

/-! ### Ingest lanes (chapter 2) -/

/-- A waiting OPEN_FRAME (R33). -/
structure PendingOpen where
  tag : Byte
  pts : Pts
  deadline : Stamp
  deriving DecidableEq, Repr

/-- The tile row of a PUT_ROWS that awaits its burst (R30, R35). -/
structure RowBuffer where
  row : Nat
  data : List Byte
  deriving DecidableEq, Repr

/-- An ingest lane record (R30). -/
structure IngestLane where
  link : Link
  openFrame : Option Nat
  pendingOpen : Option PendingOpen
  rowBuffer : Option RowBuffer
  openLimit : Nat
  deriving DecidableEq, Repr

/-! ### Rendition lanes and the Window Engine (chapters 5 and 6) -/

/-- A window: crop origin, crop size, decimation and badge flag (R91). -/
structure Window where
  x0 : Nat
  y0 : Nat
  w : Nat
  h : Nat
  d : Nat
  badge : Bool
  deriving DecidableEq, Repr

/-- A lane's binding (R88, R91). -/
structure Binding where
  source : Src
  window : Window
  deriving DecidableEq, Repr

/-- An entry of a hold list with its latched window (R88, R113). -/
structure Hold where
  slot : Nat
  frame : FrameNo
  window : Window
  deriving DecidableEq, Repr

/-- A waiting CLAIM NEXT (R97). -/
structure PendingClaim where
  tag : Byte
  deadline : Stamp
  deriving DecidableEq, Repr

/-- The phases of a FETCH's next band (R122, R123). -/
inductive FetchPhase where
  | request
  | read
  | send
  deriving DecidableEq, Repr

/-- The FETCH context (R122). -/
structure FetchCtx where
  tag : Byte
  hold : Hold
  nextBand : Nat
  lastBand : Nat
  served : Nat
  phase : FetchPhase
  deriving DecidableEq, Repr

/-- A rendition lane record (R88), with the lane's FETCH context (R122) and band buffer (R121). -/
structure RenditionLane where
  link : Link
  binding : Option Binding
  mark : Option FrameNo
  holds : List Hold
  pendingClaim : Option PendingClaim
  notices : List Notice
  overrun : Bool
  subs : BitVec 6
  claimLimit : Nat
  skipped : Count16
  lost : Count16
  noticeOverruns : Count16
  fetch : Option FetchCtx
  bandBuffer : Option Band
  deriving DecidableEq, Repr

/-! ### Attribute Table (chapter 4) -/

/-- The four attribute values (R75). -/
inductive Attr where
  | none
  | privacy
  | badge
  | ignore
  deriving DecidableEq, Repr

/-- The badge stencil: 64 lines, bit b of a line being its position b, and the two luma values (R77). -/
structure Stencil where
  lines : List (BitVec 64)
  fg : Byte
  bg : Byte
  deriving DecidableEq, Repr

/-- The Attribute Table (R75, R77). -/
structure AttrTable where
  entries : PerSource (List Attr)
  stencil : Stencil
  deriving DecidableEq, Repr

/-- The Window Engine's one band-in-progress record: the lane, the slot, the band index, the latched window, the
attribute view taken at the grant and the running sums (R82, R120). -/
structure BandInProgress where
  lane : RLane
  tag : Byte
  slot : Nat
  index : Nat
  window : Window
  viewAttrs : List Attr
  viewStencil : Stencil
  sums : List Nat
  deriving DecidableEq, Repr

/-! ### Change Detector (chapter 3) -/

/-- The states of a tile record (R55). -/
inductive TileState where
  | quiet
  | active
  | reseed
  deriving DecidableEq, Repr

/-- A tile record (R55). -/
structure TileRec where
  state : TileState
  quietRun : Nat
  signature : List Byte
  lastChanged : Option FrameNo
  deriving DecidableEq, Repr

/-- One source's detector settings (R67). -/
structure DetectSettings where
  tHi : Nat
  tLo : Nat
  quiet : Nat
  percent : Nat
  deriving DecidableEq, Repr

/-- The analysis context (R50). -/
structure AnalysisCtx where
  slot : Nat
  source : Src
  number : FrameNo
  arrival : Stamp
  cols : Nat
  rows : Nat
  settings : DetectSettings
  excluded : TileSet
  marked : TileSet
  nextRow : Nat
  changed : Nat
  active : Nat
  mask : TileSet
  attrSeen : Bool
  deriving DecidableEq, Repr

/-- The Change Detector's state; it is BUSY while the context is present (R47, R48, R50, R55, R61, R64, R67). -/
structure Detector where
  queue : List Nat
  ctx : Option AnalysisCtx
  tiles : PerSource (List TileRec)
  marks : PerSource TileSet
  laterWrites : PerSource TileSet
  first : PerSource Bool
  settings : PerSource DetectSettings
  deriving DecidableEq, Repr

/-! ### Memory Scheduler (chapter 7) -/

/-- What a granted burst does (R129). The ingest burst carries the row buffer's data and its place in the DRAM,
since it runs to its end even when its lane has been reset (R37). -/
inductive Job where
  | ingest (x : Src) (addr : Nat) (data : List Byte)
  | detector
  | band (l : RLane)
  deriving DecidableEq, Repr

/-- A granted burst: its cost, the service units it still has to carry, and whether the operation it belongs to is
still under way (R129, R130). -/
structure Burst where
  job : Job
  cost : Nat
  remaining : Nat
  live : Bool
  deriving DecidableEq, Repr

/-- The state of the DRAM (R129). -/
inductive Dram where
  | idle
  | burst (b : Burst)
  | refresh (remaining : Nat)
  deriving DecidableEq, Repr

/-- A schedule: seven allowances and a priority lane (R139). -/
structure Schedule where
  allowance : PerReq Nat
  priority : Option RLane
  deriving DecidableEq, Repr

/-- The Memory Scheduler's state (R129 to R140). `waiting` holds the cost of each requester's waiting request; `room` is what the
DRAM may still carry in the current microsecond, of the 64 units that R129 gives each one. -/
structure Scheduler where
  dram : Dram
  room : Nat
  refreshDue : Bool
  waiting : PerReq (Option Nat)
  schedule : Schedule
  balance : PerReq Nat
  pendingSchedule : Option Schedule
  ingestPtr : Src
  roundRobin : RLane
  deriving DecidableEq, Repr

/-! ### Timebase and Cadence Unit (chapter 8) -/

/-- A cadence record (R146). -/
structure Cadence where
  interval : Nat
  stallLimit : Nat
  timer : Option Stamp
  repeats : Count16
  stalled : Bool
  deriving DecidableEq, Repr

/-- The edge setting of the cue line (R151). -/
inductive EdgeSetting where
  | rising
  | falling
  | both
  deriving DecidableEq, Repr

/-- The cue settings (R155). -/
structure CueSettings where
  enabled : Bool
  edge : EdgeSetting
  target : Src
  spacing : Nat
  window : Nat
  deriving DecidableEq, Repr

/-- A cue record (R152). -/
structure CueRec where
  stamp : Stamp
  target : Src
  waited : Nat
  deriving DecidableEq, Repr

/-- The Timebase and Cadence Unit's state (R143, R145, R146, R151 to R153). -/
structure Timebase where
  time : Stamp
  nextPeriod : Stamp
  cadence : PerSource Cadence
  cueSettings : CueSettings
  spacingHold : Option Stamp
  cues : List CueRec
  cueOverruns : Count16
  deriving DecidableEq, Repr

/-! ### Chapter Log and Marker Router (chapter 9) -/

/-- One source's chapter settings and last-chapter frame (R157). -/
structure ChapterUnit where
  enabled : Bool
  gap : Nat
  last : Option FrameNo
  deriving DecidableEq, Repr

/-- Why a frame was decided a chapter (R158). -/
inductive ChapterReason where
  | first
  | cue
  | scene
  deriving DecidableEq, Repr

/-- A chapter record (R160). -/
structure ChapterRec where
  seq : BitVec 16
  source : Src
  frame : FrameNo
  pts : Pts
  arrival : Stamp
  changed : Nat
  active : Nat
  reason : ChapterReason
  deriving DecidableEq, Repr

/-- The generator of a marker channel (R163). -/
inductive Generator where
  | off
  | scene (x : Src)
  | chapter (x : Src)
  | stalled (x : Src)
  | cue
  | evict (x : Src)
  | poolLow
  deriving DecidableEq, Repr

/-- An entry of the management marker queue (R166). -/
structure MarkerEntry where
  channel : Nat
  event : Event
  overrun : Bool
  deriving DecidableEq, Repr

/-- A marker line: enable, pulse width, and the end stamp while the line is HIGH (R168). -/
structure MarkerLine where
  enabled : Bool
  width : Nat
  high : Option Stamp
  deriving DecidableEq, Repr

/-- The Chapter Log and Marker Router's state (R157, R160, R161, R163, R165, R166, R168). -/
structure Router where
  chapters : PerSource ChapterUnit
  log : List ChapterRec
  nextSeq : BitVec 16
  overflows : Count16
  generators : List Generator
  mgmtSubs : BitVec 6
  markers : List MarkerEntry
  markerOverrun : Bool
  markerOverruns : Count16
  m0 : MarkerLine
  m1 : MarkerLine
  deriving DecidableEq, Repr

/-! ### Management link unit (chapter 11) -/

/-- The frame state of the management link (R187). -/
inductive FrameState where
  | idle
  | receiving
  | executed
  | result
  deriving DecidableEq, Repr

/-- One source's four statistic counters (R42). -/
structure SourceCounters where
  drops : Count16
  evictions : Count16
  repeats : Count16
  cueMisses : Count16
  deriving DecidableEq, Repr

/-- What a command left to be clocked out: its result code and result data (R188). -/
structure CommandResult where
  code : AnswerCode
  data : List Byte
  deriving DecidableEq, Repr

/-- The Management link unit's state (R42, R187, R188, R194). `csnLow` is the chip select input held low; `sent` is the bytes clocked
out since the frame's command was executed, so its length counts them. -/
structure Mlu where
  csnLow : Bool
  staging : List Byte
  frame : FrameState
  result : Option CommandResult
  sent : List Byte
  cause : BitVec 9
  counters : PerSource SourceCounters
  deriving DecidableEq, Repr

/-! ### The whole part -/

/-- The state of the part. `pending` is the model's queue of the commands that wait, first in, first out; `rstnLow`
is the board reset input held low (R195); `mem` is the stacked DRAM as (address, byte) cells in canonical form (R1). -/
structure State where
  pending : List Instr
  rstnLow : Bool
  mem : List Host.Cell
  fpc : Fpc
  il : PerSource IngestLane
  rl : PerRL RenditionLane
  cd : Detector
  attr : AttrTable
  band : Option BandInProgress
  ms : Scheduler
  tcu : Timebase
  clr : Router
  mlu : Mlu
  deriving DecidableEq, Repr

/-- Why the machine stops with a fault. -/
inductive Fault where
  /-- A burst reaches a DRAM byte at or above 128 MiB, an address that does not exist (R1). Raised by
  INGEST_BURST_COMPLETE, DETECTOR_ROW_BURST_COMPLETE and BAND_BURST_COMPLETE; no plan that R2 accepts reaches it. Safe. -/
  | dramRange
  deriving DecidableEq, Repr

/-- Why a command is refused. -/
inductive Refusal where
  /-- A command that has no meaning yet, by its mnemonic; raised by no arm of `exec`. Safe. -/
  | notModelled (mnemonic : String)
  deriving DecidableEq, Repr

/-! ### Values after power-on reset -/

/-- A lane's link after power-on or board reset: DOWN and empty (R171, R174, R175). -/
def Link.reset : Link :=
  { up := false, queue := [], outgoing := [], ahead := 0, sending := none, lastSent := [], errors := 0, badRun := 0 }

/-- An ingest lane after power-on or board reset (R30). -/
def IngestLane.reset : IngestLane :=
  { link := Link.reset, openFrame := none, pendingOpen := none, rowBuffer := none, openLimit := 33 }

/-- A rendition lane after power-on or board reset (R88, R121, R126). -/
def RenditionLane.reset : RenditionLane :=
  { link := Link.reset, binding := none, mark := none, holds := [], pendingClaim := none, notices := [],
    overrun := false, subs := 0, claimLimit := 40, skipped := 0, lost := 0, noticeOverruns := 0,
    fetch := none, bandBuffer := none }

/-- The frame pool after power-on or board reset: UNPLANNED (R26). -/
def Fpc.reset : Fpc :=
  { plan := none, slots := [], current := ⟨none, none⟩, nextFrame := ⟨0, 0⟩, waitList := [], poolLow := 0 }

/-- A tile record after a reset or the taking of a plan (R55). -/
def TileRec.reset : TileRec :=
  { state := .reseed, quietRun := 0, signature := List.replicate 16 0, lastChanged := none }

/-- A source's tile table after a reset or the taking of a plan (R55). -/
def tileTableReset : List TileRec := List.replicate Config.tileCount TileRec.reset

/-- The default detector settings (R67). -/
def DetectSettings.reset : DetectSettings := { tHi := 96, tLo := 48, quiet := 4, percent := 40 }

/-- The Change Detector after power-on or board reset (R74). -/
def Detector.reset : Detector :=
  { queue := [], ctx := none, tiles := ⟨tileTableReset, tileTableReset⟩, marks := ⟨0, 0⟩, laterWrites := ⟨0, 0⟩,
    first := ⟨true, true⟩, settings := ⟨DetectSettings.reset, DetectSettings.reset⟩ }

/-- The Attribute Table after power-on or board reset (R87). -/
def AttrTable.reset : AttrTable :=
  { entries := ⟨List.replicate Config.tileCount .none, List.replicate Config.tileCount .none⟩,
    stencil := { lines := List.replicate 64 0, fg := 235, bg := 16 } }

/-- The default schedule (R132, R142). -/
def Schedule.reset : Schedule :=
  { allowance := ⟨⟨1000, 1000⟩, 1500, ⟨2000, 2000, 2000, 2000⟩⟩, priority := none }

/-- The Memory Scheduler after power-on or board reset (R142). -/
def Scheduler.reset : Scheduler :=
  { dram := .idle, room := Config.unitsPerMicro, refreshDue := false, waiting := ⟨⟨none, none⟩, none, ⟨none, none, none, none⟩⟩,
    schedule := Schedule.reset, balance := ⟨⟨2000, 2000⟩, 3000, ⟨4000, 4000, 4000, 4000⟩⟩,
    pendingSchedule := none, ingestPtr := .s0, roundRobin := .r0 }

/-- A cadence record after power-on or board reset (R146). -/
def Cadence.reset : Cadence := { interval := 0, stallLimit := 30, timer := none, repeats := 0, stalled := false }

/-- The default cue settings (R155). -/
def CueSettings.reset : CueSettings := { enabled := false, edge := .rising, target := .s0, spacing := 150, window := 6 }

/-- The Timebase and Cadence Unit after power-on or board reset (R145, R156). -/
def Timebase.reset : Timebase :=
  { time := 0, nextPeriod := 1000, cadence := ⟨Cadence.reset, Cadence.reset⟩, cueSettings := CueSettings.reset,
    spacingHold := none, cues := [], cueOverruns := 0 }

/-- A source's chapter unit after power-on or board reset (R157). -/
def ChapterUnit.reset : ChapterUnit := { enabled := false, gap := 300, last := none }

/-- A marker line after power-on or board reset (R168). -/
def MarkerLine.reset : MarkerLine := { enabled := false, width := 20, high := none }

/-- The Chapter Log and Marker Router after power-on or board reset (R170). -/
def Router.reset : Router :=
  { chapters := ⟨ChapterUnit.reset, ChapterUnit.reset⟩, log := [], nextSeq := 0, overflows := 0,
    generators := List.replicate 6 .off, mgmtSubs := 0, markers := [], markerOverrun := false, markerOverruns := 0,
    m0 := MarkerLine.reset, m1 := MarkerLine.reset }

/-- Statistic counters at 0 (R42). -/
def SourceCounters.reset : SourceCounters := { drops := 0, evictions := 0, repeats := 0, cueMisses := 0 }

/-- The Management link unit after power-on reset: POWER_ON alone is set (R187, R194). -/
def Mlu.reset : Mlu :=
  { csnLow := false, staging := [], frame := .idle, result := none, sent := [], cause := 1, counters := ⟨SourceCounters.reset, SourceCounters.reset⟩ }

/-- The part right after power-on reset (R195), with no command waiting and no DRAM byte listed. -/
def State.reset : State :=
  { pending := [], rstnLow := false, mem := [], fpc := Fpc.reset, il := ⟨IngestLane.reset, IngestLane.reset⟩,
    rl := ⟨RenditionLane.reset, RenditionLane.reset, RenditionLane.reset, RenditionLane.reset⟩,
    cd := Detector.reset, attr := AttrTable.reset, band := none, ms := Scheduler.reset, tcu := Timebase.reset,
    clr := Router.reset, mlu := Mlu.reset }

end Sys2Proof.Machine
end

