-- ==== Sys2Proof/Machine/Ops.lean ====
section
/-! DEFINITION. The named operations over the state that every meaning is written with: the records per source, lane
and requester; stamps, frame numbers and counters; bytes and the CRC; the stacked DRAM; the links' answers; the notice
queues and the marker channels. -/

namespace Sys2Proof.Machine

/-! ### One value per source, lane or requester -/

def PerSource.get {α : Type} (p : PerSource α) : Src → α
  | .s0 => p.s0
  | .s1 => p.s1

def PerSource.set {α : Type} (p : PerSource α) (x : Src) (v : α) : PerSource α :=
  match x with
  | .s0 => { p with s0 := v }
  | .s1 => { p with s1 := v }

def PerSource.map {α β : Type} (f : α → β) (p : PerSource α) : PerSource β := ⟨f p.s0, f p.s1⟩

def PerRL.get {α : Type} (p : PerRL α) : RLane → α
  | .r0 => p.r0
  | .r1 => p.r1
  | .r2 => p.r2
  | .r3 => p.r3

def PerRL.set {α : Type} (p : PerRL α) (l : RLane) (v : α) : PerRL α :=
  match l with
  | .r0 => { p with r0 := v }
  | .r1 => { p with r1 := v }
  | .r2 => { p with r2 := v }
  | .r3 => { p with r3 := v }

def PerRL.map {α β : Type} (f : α → β) (p : PerRL α) : PerRL β := ⟨f p.r0, f p.r1, f p.r2, f p.r3⟩

def PerReq.get {α : Type} (p : PerReq α) : Requester → α
  | .il x => p.il.get x
  | .det => p.det
  | .rl l => p.rl.get l

def PerReq.set {α : Type} (p : PerReq α) (r : Requester) (v : α) : PerReq α :=
  match r with
  | .il x => { p with il := p.il.set x v }
  | .det => { p with det := v }
  | .rl l => { p with rl := p.rl.set l v }

def PerReq.map {α β : Type} (f : α → β) (p : PerReq α) : PerReq β := ⟨p.il.map f, f p.det, p.rl.map f⟩

/-- The values of two records, combined requester by requester. -/
def PerReq.map₂ {α β γ : Type} (f : α → β → γ) (p : PerReq α) (q : PerReq β) : PerReq γ :=
  ⟨⟨f p.il.s0 q.il.s0, f p.il.s1 q.il.s1⟩, f p.det q.det,
    ⟨f p.rl.r0 q.rl.r0, f p.rl.r1 q.rl.r1, f p.rl.r2 q.rl.r2, f p.rl.r3 q.rl.r3⟩⟩

def PerReq.sum (p : PerReq Nat) : Nat :=
  p.il.s0 + p.il.s1 + p.det + p.rl.r0 + p.rl.r1 + p.rl.r2 + p.rl.r3

/-- Both sources, in order. -/
def srcAll : List Src := [.s0, .s1]

/-- The four rendition lanes, in order. -/
def rlAll : List RLane := [.r0, .r1, .r2, .r3]

/-- The six lanes, in number order (00_scope.md, "Lane numbers"). -/
def laneAll : List Lane := [.il .s0, .il .s1, .rl .r0, .rl .r1, .rl .r2, .rl .r3]

/-- The other source (and ingest lane). -/
def otherSrc : Src → Src
  | .s0 => .s1
  | .s1 => .s0

/-- The rendition lane that follows; RL3 is followed by RL0 (R136). -/
def nextRL : RLane → RLane
  | .r0 => .r1
  | .r1 => .r2
  | .r2 => .r3
  | .r3 => .r0

/-- A source's number. -/
def srcNum : Src → Nat
  | .s0 => 0
  | .s1 => 1

/-- The source a byte names, if it names one (R179). -/
def srcOf : Nat → Option Src
  | 0 => some .s0
  | 1 => some .s1
  | _ => none

/-- A rendition lane's index 0 to 3. -/
def rlNum : RLane → Nat
  | .r0 => 0
  | .r1 => 1
  | .r2 => 2
  | .r3 => 3

/-- A lane's number 0 to 5 (00_scope.md, "Lane numbers"). -/
def laneNum : Lane → Nat
  | .il x => srcNum x
  | .rl l => rlNum l + 2

/-- The lane a number names (R197). -/
def laneOf : Nat → Option Lane
  | 0 => some (.il .s0)
  | 1 => some (.il .s1)
  | 2 => some (.rl .r0)
  | 3 => some (.rl .r1)
  | 4 => some (.rl .r2)
  | 5 => some (.rl .r3)
  | _ => none

/-- No lane is a member of the set. -/
def laneSetEmpty (p : PerRL Bool) : Bool := !(p.r0 || p.r1 || p.r2 || p.r3)

/-! ### Stamps, frame numbers and counters -/

/-- Stamp a is at or before stamp b (R144). -/
def atOrBefore (a b : Stamp) : Bool := decide ((b - a).toNat < 2147483648)

/-- Frame number a is below b in the wrap-safe order (R6). -/
def frameBelow (a b : FrameNo) : Bool := decide (a ≠ b ∧ (b - a).toNat < 2147483648)

/-- Frame number a is at most b: it is b or below b (R6). -/
def frameAtMost (a b : FrameNo) : Bool := decide ((b - a).toNat < 2147483648)

/-- A number is above the mark, or there is no mark (R96, R98). -/
def aboveMark (mark : Option FrameNo) (n : FrameNo) : Bool :=
  match mark with
  | none => true
  | some m => frameBelow m n

/-- A saturating counter increased by k (Conventions, "Counters"). -/
def satAdd (c : Count16) (k : Nat) : Count16 := BitVec.ofNat 16 (min 65535 (c.toNat + k))

/-- A stamp so many microseconds later. -/
def later (t : Stamp) (micros : Nat) : Stamp := t + BitVec.ofNat 32 micros

/-- Division rounded up. -/
def ceilDiv (a b : Nat) : Nat := (a + b - 1) / b

/-! ### Bytes, the CRC and answer codes -/

/-- The low n bytes of a number, most significant byte first (R179). -/
def beBytes : Nat → Nat → List Byte
  | 0, _ => []
  | n + 1, v => beBytes n (v / 256) ++ [BitVec.ofNat 8 v]

/-- The number that bytes spell, most significant byte first (R179). -/
def beNat (bs : List Byte) : Nat := bs.foldl (fun acc b => acc * 256 + b.toNat) 0

/-- The field of so many bytes at an offset of a payload, read as a number (R179). -/
def field (bs : List Byte) (off len : Nat) : Nat := beNat ((bs.drop off).take len)

/-- One bit of the CRC register's advance, for the polynomial x^16 + x^12 + x^5 + 1 (R173). -/
def crcBit (c : BitVec 16) : BitVec 16 :=
  if c.getLsbD 15 then (c <<< 1) ^^^ 0x1021#16 else c <<< 1

/-- One byte of the CRC's advance, most significant bit first (R173). -/
def crcByte (c : BitVec 16) (b : Byte) : BitVec 16 :=
  crcBit (crcBit (crcBit (crcBit (crcBit (crcBit (crcBit (crcBit (c ^^^ (b.zeroExtend 16 <<< 8)))))))))

/-- The CRC of a record's header and payload, from the value 65,535 (R173). -/
def crc16 (bs : List Byte) : BitVec 16 := bs.foldl crcByte 0xFFFF#16

/-- Header, payload and CRC of a record the part sends (R173, R180). -/
def sealRecord (kind tag : Byte) (payload : List Byte) : List Byte :=
  let body := kind :: tag :: (beBytes 3 payload.length ++ payload)
  body ++ beBytes 2 (crc16 body).toNat

/-- The number of an answer code (R177). -/
def answerNum : AnswerCode → Nat
  | .ok => 0
  | .queueFull => 1
  | .wrongLane => 2
  | .noPlan => 3
  | .badArg => 4
  | .order => 5
  | .poolFull => 6
  | .notFilling => 7
  | .incomplete => 8
  | .notBound => 9
  | .busy => 10
  | .holdLimit => 11
  | .notHeld => 12
  | .noFrame => 13
  | .gone => 14
  | .notYet => 15
  | .windowCost => 16
  | .aborted => 17

/-! ### The stacked DRAM -/

/-- The DRAM's cells: addresses strictly rising, and no cell that repeats what an unlisted address reads as. -/
abbrev memWf (m : List Host.Cell) : Prop :=
  m.Pairwise (fun a b => a.1 < b.1) ∧ ∀ c ∈ m, c.2 ≠ Config.dramUnwritten

/-- The byte at an address. -/
def readByte : List Host.Cell → Nat → Byte
  | [], _ => Config.dramUnwritten
  | c :: m, a => if c.1 = a then c.2 else readByte m a

/-- The cells of a run of bytes from an address on. -/
def runCells : Nat → List Byte → List Host.Cell
  | _, [] => []
  | a, b :: bs => if b = Config.dramUnwritten then runCells (a + 1) bs else (a, b) :: runCells (a + 1) bs

/-- The DRAM after a run of bytes has been written from an address on. -/
def writeBytes (m : List Host.Cell) (a : Nat) (bs : List Byte) : List Host.Cell :=
  m.filter (fun c => decide (c.1 < a)) ++ runCells a bs ++ m.filter (fun c => decide (a + bs.length ≤ c.1))

/-- A run of n bytes from an address on lies within the DRAM (R1). -/
def inDram (a n : Nat) : Bool := decide (a + n ≤ Config.dramBytes)

/-! ### Lanes and links -/

def State.modIl (s : State) (x : Src) (f : IngestLane → IngestLane) : State :=
  { s with il := s.il.set x (f (s.il.get x)) }

def State.modRl (s : State) (l : RLane) (f : RenditionLane → RenditionLane) : State :=
  { s with rl := s.rl.set l (f (s.rl.get l)) }

/-- The link of a lane. -/
def State.link (s : State) : Lane → Link
  | .il x => (s.il.get x).link
  | .rl l => (s.rl.get l).link

def State.modLink (s : State) (lane : Lane) (f : Link → Link) : State :=
  match lane with
  | .il x => s.modIl x (fun r => { r with link := f r.link })
  | .rl l => s.modRl l (fun r => { r with link := f r.link })

/-- An answer joins the lane's outgoing records (R90). -/
def pushAnswer (lane : Lane) (a : Answer) (s : State) : State :=
  s.modLink lane (fun k => { k with outgoing := k.outgoing ++ [.answer a] })

/-- The request at the head of the lane's queue is answered with a code and body, and leaves the queue (R175, R182). -/
def answerHead (lane : Lane) (code : AnswerCode) (body : List Byte) (s : State) : State :=
  match (s.link lane).queue with
  | [] => s
  | r :: rest =>
    s.modLink lane (fun k =>
      { k with queue := rest, outgoing := k.outgoing ++ [.answer ⟨r.tag, r.kind, code, body⟩] })

/-- The lane has a request in execution that its own operation has yet to answer: a waiting open or claim, a tile row
whose burst has not completed, or a FETCH (R31, R89, R175). -/
def laneBusy (s : State) : Lane → Bool
  | .il x => (s.il.get x).pendingOpen.isSome || (s.il.get x).rowBuffer.isSome
  | .rl l => (s.rl.get l).pendingClaim.isSome || (s.rl.get l).fetch.isSome

/-- The request that the lane may execute now: the head of its queue, when it is not already in execution (R31, R89). -/
def readyHead (s : State) (lane : Lane) : Option Request :=
  if laneBusy s lane then none else (s.link lane).queue.head?

/-! ### Notices and marker channels -/

/-- A notice is placed at the tail of the lane's queue; a full queue loses its oldest notice, which is counted (R104, R105). -/
def placeNotice (l : RLane) (n : Notice) (s : State) : State :=
  s.modRl l (fun r =>
    if r.notices.length < Config.noticeDepth then { r with notices := r.notices ++ [n] }
    else { r with
      notices := r.notices.tail ++ [n]
      noticeOverruns := satAdd r.noticeOverruns 1
      overrun := true })

/-- The generator names the event (R163). -/
def generatorNames (g : Generator) (e : Event) : Bool :=
  match g with
  | .off => false
  | .scene x => e.kind = .scene && e.source = some x
  | .chapter x => e.kind = .chapter && e.source = some x
  | .stalled x => e.kind = .stalled && e.source = some x
  | .cue => e.kind = .cue
  | .evict x => e.kind = .evict && e.source = some x
  | .poolLow => e.kind = .poolLow

/-- An entry joins the management marker queue; a full queue loses its oldest entry, which is counted (R166). -/
def pushMarker (channel : Nat) (e : Event) (c : Router) : Router :=
  if c.markers.length < Config.markerDepth then { c with markers := c.markers ++ [⟨channel, e, false⟩] }
  else { c with
    markers := c.markers.tail ++ [⟨channel, e, false⟩]
    markerOverruns := satAdd c.markerOverruns 1
    markerOverrun := true }

/-- A firing's pulse on a marker line: an enabled line is HIGH until the pulse width from now (R168). -/
def pulseLine (now : Stamp) (m : MarkerLine) : MarkerLine :=
  if m.enabled then { m with high := some (later now m.width) } else m

/-- The router's part of the firing of channel c: the management marker queue and the marker lines (R164). -/
def routeFiring (now : Stamp) (channel : Nat) (e : Event) (c : Router) : Router :=
  let c := if c.mgmtSubs.getLsbD channel then pushMarker channel e c else c
  if channel = 0 then { c with m0 := pulseLine now c.m0 }
  else if channel = 1 then { c with m1 := pulseLine now c.m1 }
  else c

/-- Channel c fires: MARKER notices to the subscribed lanes, the management marker queue, the marker lines (R164). -/
def fireChannel (channel : Nat) (e : Event) (s : State) : State :=
  let s := rlAll.foldl (fun s l => if (s.rl.get l).subs.getLsbD channel then placeNotice l (.marker channel e) s else s) s
  { s with clr := routeFiring s.tcu.time channel e s.clr }

/-- An event is raised: each channel whose generator names it fires, in channel order (R164). -/
def fireEvent (e : Event) (s : State) : State :=
  (List.range 6).foldl
    (fun s c => if generatorNames (s.clr.generators.getD c .off) e then fireChannel c e s else s) s

/-! ### Outcomes -/

/-- A command reaches a running part: while RSTN is held low nothing is taken and nothing happens (R187, R195). -/
def running (s : State) (f : State → Host.Outcome State Fault Refusal) : Host.Outcome State Fault Refusal :=
  if s.rstnLow then .next s else f s

end Sys2Proof.Machine
end

