-- ==== Sys2Proof/Machine/Operands.lean ====
section
/-! DEFINITION. The operands of the commands as they are read from bytes: records and requests (R173, R176, R180, R181),
windows (R91), and the payloads of the management commands (R189). -/

namespace Sys2Proof.Machine

/-! ### Records and requests -/

/-- The eleven request kinds (R180). -/
inductive ReqKind where
  | openFrame
  | putRows
  | sealFrame
  | abandonFrame
  | bind
  | unbind
  | claim
  | release
  | fetch
  | fetchMask
  | subscribe
  deriving DecidableEq, Repr

/-- The request kind a kind byte names (R180). -/
def reqKindOf (b : Byte) : Option ReqKind :=
  match b.toNat with
  | 1 => some .openFrame
  | 2 => some .putRows
  | 3 => some .sealFrame
  | 4 => some .abandonFrame
  | 17 => some .bind
  | 18 => some .unbind
  | 19 => some .claim
  | 20 => some .release
  | 21 => some .fetch
  | 22 => some .fetchMask
  | 23 => some .subscribe
  | _ => none

/-- The payload length suits the kind (R181); a PUT_ROWS is malformed only when its payload is empty (R176). -/
def lengthSuits (k : ReqKind) (len : Nat) : Bool :=
  match k with
  | .openFrame => len = 6
  | .putRows => decide (1 ≤ len)
  | .sealFrame => len = 0
  | .abandonFrame => len = 0
  | .bind => len = 11
  | .unbind => len = 0
  | .claim => len = 5
  | .release => len = 1
  | .fetch => len = 3
  | .fetchMask => len = 6
  | .subscribe => len = 1

/-- The kind of a well-formed request; none when it is malformed (R176). -/
def requestKind (r : Request) : Option ReqKind :=
  match reqKindOf r.kind with
  | none => none
  | some k => if lengthSuits k r.payload.length then some k else none

/-- The request a received run of bytes carries, when the record is good: it holds a header and a CRC, its length
field is the number of payload bytes and within the longest payload, and its CRC is right (R173). -/
def goodRecord (bytes : List Byte) : Option Request :=
  let n := bytes.length
  let payload := (bytes.drop 5).take (n - 7)
  if 7 ≤ n ∧ field bytes 2 3 = n - 7 ∧ n - 7 ≤ Config.maxPayload ∧
      field bytes (n - 2) 2 = (crc16 (bytes.take (n - 2))).toNat then
    some ⟨bytes.getD 0 0, bytes.getD 1 0, payload⟩
  else none

/-- The kinds of claim (R181). -/
inductive ClaimKind where
  | next
  | latest
  | number
  deriving DecidableEq, Repr

/-- The claim kind a byte names, if it names one (R181). -/
def claimKindOf : Nat → Option ClaimKind
  | 0 => some .next
  | 1 => some .latest
  | 2 => some .number
  | _ => none

/-- The modes of FETCH_MASK (R181). -/
inductive MaskMode where
  | frame
  | since
  deriving DecidableEq, Repr

/-- The FETCH_MASK mode a byte names, if it names one (R181). -/
def maskModeOf : Nat → Option MaskMode
  | 0 => some .frame
  | 1 => some .since
  | _ => none

/-! ### Windows -/

/-- The window a BIND payload carries (R181). -/
def windowOf (p : List Byte) : Window :=
  { x0 := field p 1 2, y0 := field p 3 2, w := field p 5 2, h := field p 7 2, d := field p 9 1,
    badge := field p 10 1 ≠ 0 }

/-- A window is valid for a picture of width W and height H luma samples (R91). -/
def windowValid (W H : Nat) (v : Window) : Bool :=
  decide (1 ≤ v.d ∧ v.d ≤ 4) &&
  decide (v.x0 % 2 = 0 ∧ v.x0 + 2 ≤ W) &&
  decide (v.y0 % 2 = 0 ∧ v.y0 + 2 ≤ H) &&
  decide (v.w % (8 * v.d) = 0 ∧ 8 * v.d ≤ v.w ∧ v.w ≤ 2048) &&
  decide (v.h % (8 * v.d) = 0 ∧ 8 * v.d ≤ v.h ∧ v.h ≤ 1280)

/-- The output width of a window (R91, R114). -/
def outWidth (v : Window) : Nat := v.w / v.d

/-- The output height of a window (R91, R114). -/
def outHeight (v : Window) : Nat := v.h / v.d

/-- The band count of a window (R91). -/
def bandCount (v : Window) : Nat := outHeight v / 8

/-- The cost of one band's burst: w × 8d luma samples and half as many chroma (R91, R131). -/
def bandCost (v : Window) : Nat := 2 + ceilDiv (v.w * 8 * v.d * 3 / 2) 256

/-- The cost of an ingest tile row of a source c tile columns wide (R35, R131). -/
def ingestRowCost (cols : Nat) : Nat := 2 + ceilDiv (64 * cols * 64 * 3 / 2) 256

/-- The cost of a detector tile row of a source c tile columns wide (R51, R131). -/
def detectorRowCost (cols : Nat) : Nat := 2 + ceilDiv (64 * cols * 64) 256

/-! ### Management payloads -/

/-- A flag byte reads any value other than 0 as set (R189). -/
def flagAt (p : List Byte) (off : Nat) : Bool := field p off 1 ≠ 0

/-- One source's four bytes of a SET_PLAN payload (R189); a disabled source has quota 0 (R1). -/
def sourcePlanOf (p : List Byte) (off : Nat) : SourcePlan :=
  { enabled := flagAt p off, cols := field p (off + 1) 1, rows := field p (off + 2) 1,
    quota := if flagAt p off then field p (off + 3) 1 else 0 }

/-- The plan a SET_PLAN payload carries (R189). -/
def planOf (p : List Byte) : Plan :=
  { slots := field p 0 1, source := ⟨sourcePlanOf p 1, sourcePlanOf p 5⟩ }

/-- The settings a SET_DETECT payload carries, brought into range (R67). -/
def detectOf (p : List Byte) : DetectSettings :=
  let hi := min (field p 1 2) 4080
  { tHi := hi, tLo := min (field p 3 2) hi, quiet := max 1 (min (field p 5 1) 15),
    percent := max 1 (min (field p 6 1) 100) }

/-- The allowances a SET_SCHEDULE payload carries (R189). -/
def allowanceOf (p : List Byte) : PerReq Nat :=
  ⟨⟨field p 0 2, field p 2 2⟩, field p 4 2, ⟨field p 6 2, field p 8 2, field p 10 2, field p 12 2⟩⟩

/-- The priority lane a SET_SCHEDULE code names: RL0 to RL3 are 0 to 3 and none is 255; another code is refused (R139, R189). -/
def priorityOf : Nat → Option (Option RLane)
  | 0 => some (some .r0)
  | 1 => some (some .r1)
  | 2 => some (some .r2)
  | 3 => some (some .r3)
  | 255 => some none
  | _ => none

/-- The generator that a generator code and a source byte name; none when refused (R169, R189). -/
def generatorOf (code x : Nat) : Option Generator :=
  match code with
  | 0 => (srcOf x).map .scene
  | 1 => (srcOf x).map .chapter
  | 2 => (srcOf x).map .stalled
  | 3 => some .cue
  | 4 => (srcOf x).map .evict
  | 5 => some .poolLow
  | 255 => some .off
  | _ => none

/-- The six generators of a SET_ROUTE payload, when none is refused (R169). -/
def generatorsOf (p : List Byte) : Option (List Generator) :=
  (List.range 6).mapM (fun c => generatorOf (field p (2 * c) 1) (field p (2 * c + 1) 1))

/-- The edge setting a SET_CUE code names (R189). -/
def edgeOf : Nat → Option EdgeSetting
  | 0 => some .rising
  | 1 => some .falling
  | 2 => some .both
  | _ => none

/-- The cue settings a SET_CUE payload carries, W_cue brought into range; none when refused (R155). -/
def cueSettingsOf (p : List Byte) : Option CueSettings :=
  match edgeOf (field p 1 1), srcOf (field p 2 1) with
  | some e, some x =>
    some { enabled := flagAt p 0, edge := e, target := x, spacing := field p 3 1,
           window := max 1 (min (field p 4 1) 15) }
  | _, _ => none

/-- The attribute a value code names (R189). -/
def attrOf : Nat → Option Attr
  | 0 => some .none
  | 1 => some .privacy
  | 2 => some .badge
  | 3 => some .ignore
  | _ => none

/-- The lines a BADGE_WRITE's line count asks for: above 16 is taken as 16 (R80, R190). -/
def badgeLineCount (p : List Byte) : Nat := min (field p 1 1) 16

/-- A stencil line from its eight bytes: bit b is bit b mod 8 of byte b div 8 (R189). -/
def stencilLineOf (bs : List Byte) : BitVec 64 :=
  (List.range 8).foldl (fun acc k => acc ||| ((bs.getD k 0).zeroExtend 64 <<< (8 * k))) 0

end Sys2Proof.Machine
end

