-- ==== Sys2Proof/Machine/Flags.lean ====
section
/-! DEFINITION. The flags and status values of the part that are computed from others: the flags byte of a frame, the
states reported by READ_STATUS, the attention line, and the bits of the reset cause record. -/

namespace Sys2Proof.Machine

/-- A Bool as a bit's value. -/
def bit (b : Bool) : Nat := if b then 1 else 0

/-- All flags of a frame clear (R5). -/
def flagsClear : FrameFlags := { first := false, cue := false, chapter := false, attr := false }

/-- The frame flags byte: bit 0 FIRST, bit 1 CUE, bit 2 CHAPTER, bit 3 ATTR (R179). -/
def flagsByte (f : FrameFlags) : Nat := bit f.first + 2 * bit f.cue + 4 * bit f.chapter + 8 * bit f.attr

/-- The class code (R179). -/
def classNum : FrameClass → Nat
  | .hold => 0
  | .patch => 1
  | .scene => 2

/-- The event kind code (R179). -/
def eventNum : EventKind → Nat
  | .scene => 0
  | .chapter => 1
  | .stalled => 2
  | .cue => 3
  | .evict => 4
  | .poolLow => 5

/-- The chapter reason code (R179). -/
def reasonNum : ChapterReason → Nat
  | .first => 0
  | .cue => 1
  | .scene => 2

/-- The attribute value code (R189). -/
def attrNum : Attr → Nat
  | .none => 0
  | .privacy => 1
  | .badge => 2
  | .ignore => 3

/-- The state of a slot (R5). -/
def slotState : Slot → SlotState
  | .free => .free
  | .filling _ _ _ => .filling
  | .queued _ => .queued
  | .analysing _ => .analysing
  | .analysed true _ _ _ _ => .current
  | .analysed false _ _ _ _ => .stale

/-- The slot state code (R189). -/
def slotStateNum : SlotState → Nat
  | .free => 0
  | .filling => 1
  | .queued => 2
  | .analysing => 3
  | .current => 4
  | .stale => 5

/-- The source of a slot; a FREE slot has none (R5). -/
def slotSource : Slot → Option Src
  | .free => none
  | .filling x _ _ => some x
  | .queued f => some f.source
  | .analysing f => some f.source
  | .analysed _ f _ _ _ => some f.source

/-- The frame number of a slot; FREE and FILLING slots have none (R5). -/
def slotFrame : Slot → Option FrameNo
  | .free => none
  | .filling _ _ _ => none
  | .queued f => some f.number
  | .analysing f => some f.number
  | .analysed _ f _ _ _ => some f.number

/-- The hold count of a slot: 0 unless it is CURRENT or STALE (R5). -/
def slotHolds : Slot → Nat
  | .analysed _ _ _ h _ => h
  | _ => 0

/-- The owed set of a slot: empty unless it is CURRENT or STALE (R5). -/
def slotOwed : Slot → PerRL Bool
  | .analysed _ _ _ _ o => o
  | _ => ⟨false, false, false, false⟩

/-- A slot that is not FREE. -/
def slotUsed (k : Slot) : Bool := slotState k ≠ .free

/-- An owed set as bits 0 to 3 for RL0 to RL3 (R191). -/
def owedBits (o : PerRL Bool) : Nat := bit o.r0 + 2 * bit o.r1 + 4 * bit o.r2 + 8 * bit o.r3

/-- The pool is idle: every slot FREE, no waiting open, no pending claim, and no lane with a request (R3). -/
def poolIdle (s : State) : Bool :=
  s.fpc.slots.all (fun k => !slotUsed k) && s.fpc.waitList.isEmpty &&
  rlAll.all (fun l => (s.rl.get l).pendingClaim.isNone) &&
  laneAll.all (fun lane => (s.link lane).queue.isEmpty)

/-- The pool state code: UNPLANNED 0, IDLE 1, ACTIVE 2 (R3, R189). -/
def poolStateNum (s : State) : Nat :=
  match s.fpc.plan with
  | none => 0
  | some _ => if poolIdle s then 1 else 2

/-- The six link states, bit n for lane n (R191). -/
def linkBits (s : State) : Nat :=
  laneAll.foldl (fun acc lane => acc + bit (s.link lane).up * 2 ^ laneNum lane) 0

/-- ATTN is asserted while the management marker queue holds an entry (R166). While RSTN is low it keeps its level
(DESIGN CHOICE, notes/assumptions/29.md). -/
def attnAsserted (s : State) : Bool := !s.clr.markers.isEmpty

/-- A marker line's level (R168). While RSTN is low it keeps its level (DESIGN CHOICE, notes/assumptions/29.md). -/
def markerLevel (m : MarkerLine) : Bool := m.high.isSome

/-- SDO is driven while CSN is low, and released while CSN is high and while RSTN is held low (chapter 11.1, R187). -/
def sdoDriven (s : State) : Bool := !s.rstnLow && s.mlu.csnLow

/-- The BOARD flag of the reset cause record (R194). -/
def causeBoard : BitVec 9 := 2

/-- The SOFT flag of the reset cause record (R194). -/
def causeSoft : BitVec 9 := 4

/-- The flag LANE0 to LANE5 of a lane in the reset cause record (R194). -/
def causeLane (lane : Lane) : BitVec 9 := BitVec.twoPow 9 (laneNum lane + 3)

end Sys2Proof.Machine
end

