-- ==== Sys2Proof/Machine/Records.lean ====
section
/-! DEFINITION. The bytes of what the part sends: answers, notices, band data, chapter records and marker entries, in the
layouts of R179 to R185. -/

namespace Sys2Proof.Machine

/-- A source byte; 255 when absent (R179). -/
def srcByte (x : Option Src) : Nat := (x.map srcNum).getD 255

/-- A frame number's value; 0 when absent (R179). -/
def frameVal (n : Option FrameNo) : Nat := (n.map BitVec.toNat).getD 0

/-- The 13-byte payload of a notice: kind, notice flags, source, frame number, class, frame flags, repeat count,
channel and event kind (R184). -/
def noticeBytes (kind : Nat) (overrun : Bool) (x : Option Src) (n : Option FrameNo)
    (cls flags repeats channel event : Nat) : List Byte :=
  beBytes 1 kind ++ beBytes 1 (bit overrun + 2 * bit n.isSome) ++ beBytes 1 (srcByte x) ++ beBytes 4 (frameVal n) ++
  beBytes 1 cls ++ beBytes 1 flags ++ beBytes 2 repeats ++ beBytes 1 channel ++ beBytes 1 event

/-- The payload of a notice with the OVERRUN flag it is sent with (R105, R184). -/
def noticePayload (overrun : Bool) : Notice → List Byte
  | .ready x n c f => noticeBytes 0 overrun (some x) (some n) (classNum c) (flagsByte f) 0 0 0
  | .repeated x n k => noticeBytes 1 overrun (some x) (some n) 0 0 k.toNat 0 0
  | .lost x n => noticeBytes 2 overrun (some x) (some n) 0 0 0 0 0
  | .marker c e => noticeBytes 3 overrun e.source e.frame 0 0 0 c (eventNum e.kind)

/-- The payload of an answer (R182). -/
def answerPayload (a : Answer) : List Byte := a.kind :: (beBytes 1 (answerNum a.code) ++ a.body)

/-- The payload of a band data record (R183). -/
def bandPayload (b : Band) : List Byte := beBytes 1 b.slot ++ beBytes 1 b.index ++ b.data

/-- A record's bytes on the link: header, payload and CRC (R173, R180); a notice has tag 0. -/
def recordBytes : OutRecord → List Byte
  | .answer a => sealRecord 64 a.tag (answerPayload a)
  | .notice o n => sealRecord 65 0 (noticePayload o n)
  | .band b => sealRecord 66 b.tag (bandPayload b)

/-- A change mask's 80 bytes: tile t is bit t mod 8 of byte t div 8 (R179). -/
def maskBytes (m : TileSet) : List Byte := (List.range 80).map (fun k => m.extractLsb' (8 * k) 8)

/-- The body of a claim answered OK (R95, R182). -/
def claimBody (slot : Nat) (f : SealedFrame) (v : Verdict) (win : Window) : List Byte :=
  beBytes 1 slot ++ beBytes 4 f.number.toNat ++ beBytes 1 (classNum v.cls) ++ beBytes 1 (flagsByte v.flags) ++
  beBytes 2 v.changed ++ beBytes 2 v.active ++ beBytes 6 f.pts.toNat ++ beBytes 2 (outWidth win) ++
  beBytes 2 (outHeight win) ++ beBytes 1 (bandCount win)

/-- A chapter record's 22 bytes (R185). -/
def chapterBytes (r : ChapterRec) : List Byte :=
  beBytes 2 r.seq.toNat ++ beBytes 1 (srcNum r.source) ++ beBytes 1 (reasonNum r.reason) ++ beBytes 4 r.frame.toNat ++
  beBytes 6 r.pts.toNat ++ beBytes 4 r.arrival.toNat ++ beBytes 2 r.changed ++ beBytes 2 r.active

/-- A marker entry's 13 bytes: the notice layout with kind MARKER (R184). -/
def markerBytes (m : MarkerEntry) : List Byte :=
  noticeBytes 3 m.overrun m.event.source m.event.frame 0 0 0 m.channel (eventNum m.event.kind)

end Sys2Proof.Machine
end

