-- ==== Sys2Proof/Machine/Pool.lean ====
section
/-! DEFINITION. The Frame Pool Controller (chapter 1): slots and their places in the DRAM, opening by allocation and
eviction, the slot wait list, POOL_LOW, the free check, holds and owed sets, and what a claim does. -/

namespace Sys2Proof.Machine

/-! ### Slots and geometry -/

/-- Slot k; an id the pool does not have reads as FREE. -/
def State.slot (s : State) (k : Nat) : Slot := s.fpc.slots.getD k .free

def State.setSlot (s : State) (k : Nat) (v : Slot) : State :=
  { s with fpc := { s.fpc with slots := s.fpc.slots.set k v } }

/-- The part of the plan in force that concerns a source. -/
def State.sourcePlan (s : State) (x : Src) : Option SourcePlan := s.fpc.plan.map (fun p => p.source.get x)

/-- The source's tile columns, 0 when UNPLANNED. -/
def State.cols (s : State) (x : Src) : Nat := ((s.sourcePlan x).map SourcePlan.cols).getD 0

/-- The source's tile rows, 0 when UNPLANNED. -/
def State.rows (s : State) (x : Src) : Nat := ((s.sourcePlan x).map SourcePlan.rows).getD 0

/-- The source is enabled in a plan in force. -/
def State.enabled (s : State) (x : Src) : Bool := ((s.sourcePlan x).map SourcePlan.enabled).getD false

/-- The source's quota, 0 when UNPLANNED (R19). -/
def State.quota (s : State) (x : Src) : Nat := ((s.sourcePlan x).map SourcePlan.quota).getD 0

/-- The slot size: the largest picture of an enabled source (R1). -/
def slotSize (p : Plan) : Nat :=
  let size := fun (q : SourcePlan) => if q.enabled then q.cols * q.rows * Config.tileBytes else 0
  max (size p.source.s0) (size p.source.s1)

/-- Where tile row r of slot k begins, for a picture of c tile columns (R1). -/
def State.rowPlace (s : State) (k cols r : Nat) : Nat :=
  k * (s.fpc.plan.map slotSize).getD 0 + r * (cols * Config.tileBytes)

/-- The number of FREE slots (R25). -/
def State.freeCount (s : State) : Nat := s.fpc.slots.countP (fun k => !slotUsed k)

/-- The slots of a source that are not FREE (R19). -/
def State.occupancy (s : State) (x : Src) : Nat := s.fpc.slots.countP (fun k => slotSource k = some x)

/-- An eviction candidate of a source: a STALE slot of it with hold count 0 that some lane is still owed (R16, R20, R21).
DEDUCED: R20 says that such a slot's owed set is necessarily non-empty, which fails for a slot that one event has left unheld and
owed to none and whose free check has not come yet; it is no candidate, and its own free check frees it (notes/assumptions/27.md). -/
def isCandidate (x : Src) (k : Slot) : Bool :=
  match k with
  | .analysed false f _ 0 owed => f.source = x && !laneSetEmpty owed
  | _ => false

/-- The lowest-numbered of the frames that satisfy a test, with its slot id, in the wrap-safe order (R6). -/
def lowestFrame (p : Slot → Bool) (slots : List Slot) : Option Nat :=
  (slots.zipIdx.foldl
    (fun (best : Option (Nat × FrameNo)) (k, i) =>
      match p k, slotFrame k, best with
      | true, some n, none => some (i, n)
      | true, some n, some (j, m) => if frameBelow n m then some (i, n) else some (j, m)
      | _, _, _ => best) none).map Prod.fst

/-! ### Opening a frame -/

/-- How an open is served: from a FREE slot or by evicting a candidate (R20). -/
inductive OpenChoice where
  | fromFree (k : Nat)
  | evict (k : Nat)
  deriving DecidableEq, Repr

/-- Steps 1 and 2 of R20: the lowest FREE slot when the source is below its quota, otherwise the eviction candidate
with the lowest frame number; none when the open must wait. -/
def openChoice (x : Src) (s : State) : Option OpenChoice :=
  match if s.occupancy x < s.quota x then s.fpc.slots.findIdx? (fun k => !slotUsed k) else none with
  | some k => some (.fromFree k)
  | none => (lowestFrame (isCandidate x) s.fpc.slots).map .evict

def State.modCounters (s : State) (x : Src) (f : SourceCounters → SourceCounters) : State :=
  { s with mlu := { s.mlu with counters := s.mlu.counters.set x (f (s.mlu.counters.get x)) } }

/-- The slot becomes the FILLING slot of the source's ingest lane, with no rows written (R7). -/
def fillSlot (x : Src) (pts : Pts) (k : Nat) (s : State) : State :=
  (s.setSlot k (.filling x pts 0)).modIl x (fun r => { r with openFrame := some k, pendingOpen := none })

/-- POOL_LOW fires when the number of FREE slots has fallen from at least the threshold to below it (R25). -/
def notePoolLow (before : Nat) (s : State) : State :=
  if s.fpc.poolLow ≤ before ∧ s.freeCount < s.fpc.poolLow then fireEvent ⟨.poolLow, none, none⟩ s else s

/-- An eviction's notices, counts and event: LOST to each lane owed the frame, the eviction count, EVICT (R21, R106). -/
def evictFrame (k : Nat) (s : State) : State :=
  match s.slot k with
  | .analysed _ f _ _ owed =>
    let s := rlAll.foldl (fun s l =>
      if owed.get l then
        (placeNotice l (.lost f.source f.number) s).modRl l (fun r => { r with lost := satAdd r.lost 1 })
      else s) s
    let s := s.modCounters f.source (fun c => { c with evictions := satAdd c.evictions 1 })
    fireEvent ⟨.evict, some f.source, some f.number⟩ s
  | _ => s

/-- An open is served as chosen, and its lane answered OK with the slot id (R7, R20, R21, R32). -/
def serveOpen (x : Src) (pts : Pts) (c : OpenChoice) (s : State) : State :=
  match c with
  | .fromFree k =>
    answerHead (.il x) .ok (beBytes 1 k) (notePoolLow s.freeCount (fillSlot x pts k s))
  | .evict k =>
    answerHead (.il x) .ok (beBytes 1 k) (fillSlot x pts k (evictFrame k s))

/-- The first entry of the slot wait list that can be served now leaves it and is served (R23). -/
def serveWaitOnce (s : State) : Option State :=
  match s.fpc.waitList.find? (fun e => (openChoice e.source s).isSome) with
  | none => none
  | some e =>
    match openChoice e.source s with
    | none => none
    | some c =>
      some (serveOpen e.source e.pts c
        { s with fpc := { s.fpc with waitList := s.fpc.waitList.filter (fun w => w.source ≠ e.source) } })

/-- The slot wait list is served until no entry can be, at most so many entries (R23). -/
def serveWait : Nat → State → State
  | 0, s => s
  | n + 1, s =>
    match serveWaitOnce s with
    | some t => serveWait n t
    | none => s

/-- The FPC serves the slot wait list (R23). -/
def serveWaitList (s : State) : State := serveWait s.fpc.waitList.length s

/-! ### The free check -/

/-- A slot was an eviction candidate (R20). -/
def wasCandidate (k : Slot) : Bool := isCandidate .s0 k || isCandidate .s1 k

/-- The free check of one slot (R13): a STALE slot that nothing holds and no lane is owed becomes FREE, and the wait
list is served; it is served too when the slot has newly become an eviction candidate (R18, R23). -/
def examineSlot (was : Slot) (k : Nat) (s : State) : State :=
  match s.slot k with
  | .analysed false _ _ 0 owed =>
    if laneSetEmpty owed then serveWaitList (s.setSlot k .free)
    else if wasCandidate was then s else serveWaitList s
  | _ => s

/-- The slot's hold count or owed set differs. -/
def touched (a b : Slot) : Bool := slotHolds a ≠ slotHolds b || slotOwed a ≠ slotOwed b

/-- After an event that turned the slots `before` into those of s, the slots whose hold count or owed set it changed are
examined one after another in increasing order of slot id (R18). -/
def settle (before : List Slot) (s : State) : State :=
  (List.range before.length).foldl
    (fun t k => if touched (before.getD k .free) (s.slot k) then examineSlot (before.getD k .free) k t else t) s

/-! ### Holds and owed sets -/

/-- A hold is added to a slot (R14). -/
def addHold : Slot → Slot
  | .analysed c f v h o => .analysed c f v (h + 1) o
  | k => k

/-- A hold is removed from a slot (R14). -/
def dropHold : Slot → Slot
  | .analysed c f v h o => .analysed c f v (h - 1) o
  | k => k

/-- A lane leaves a slot's owed set. -/
def leaveOwed (l : RLane) : Slot → Slot
  | .analysed c f v h o => .analysed c f v h (o.set l false)
  | k => k

/-- The slot holds a frame of the source numbered at most n (R15). -/
def atMost (x : Src) (n : FrameNo) (k : Slot) : Bool :=
  slotSource k = some x && match slotFrame k with
    | some m => frameAtMost m n
    | none => false

def State.mapSlots (s : State) (f : Slot → Slot) : State :=
  { s with fpc := { s.fpc with slots := s.fpc.slots.map f } }

/-- A lane leaves the owed set of every slot of a source, and the slots so changed are examined (R17). -/
def leaveSource (l : RLane) (x : Src) (s : State) : State :=
  settle s.fpc.slots (s.mapSlots (fun k => if slotSource k = some x then leaveOwed l k else k))

/-- The pool's part of a claim of frame n in slot k: the hold, then the owed sets of the frames numbered at most n (R14, R15). -/
def claimSlots (l : RLane) (x : Src) (k : Nat) (n : FrameNo) (s : State) : State :=
  (s.setSlot k (addHold (s.slot k))).mapSlots (fun c => if atMost x n c then leaveOwed l c else c)

/-- What a claim of slot k by lane l does when its binding is b (R95): the hold and the hold list entry with its latched
window, the skipped count, the claim mark, the owed sets and the free checks they call for, and then the answer. -/
def takeFrame (l : RLane) (b : Binding) (k : Nat) (s : State) : State :=
  match s.slot k with
  | .analysed _ f v _ _ =>
    let before := s.fpc.slots
    let s := claimSlots l b.source k f.number s
    let s := s.modRl l (fun r => { r with
      holds := r.holds ++ [⟨k, f.number, b.window⟩]
      skipped := match r.mark with
        | some m => satAdd r.skipped (f.number - m - 1).toNat
        | none => r.skipped
      mark := some f.number
      pendingClaim := none })
    answerHead (.rl l) .ok (claimBody k f v b.window) (settle before s)
  | _ => s

/-- The source's CURRENT frame, when it has one (R6). -/
def State.currentFrame (s : State) (x : Src) : Option SealedFrame :=
  match s.fpc.current.get x with
  | none => none
  | some k =>
    match s.slot k with
    | .analysed _ f _ _ _ => some f
    | _ => none

/-- The lane is bound to the source. -/
def State.boundTo (s : State) (l : RLane) (x : Src) : Bool :=
  match (s.rl.get l).binding with
  | some b => b.source = x
  | none => false

end Sys2Proof.Machine
end

