-- ==== Sys2Proof/Machine/Scheduler.lean ====
section
/-! DEFINITION. The Memory Scheduler (chapter 7): burst requests, eligibility, the order of precedence, the grant, the
end of a burst, the refresh, and the checks a schedule has to pass; and the two commands of the period's refresh. -/

namespace Sys2Proof.Machine

/-- A requester's cap: twice its allowance (R132). -/
def capOf (allowance : Nat) : Nat := 2 * allowance

/-- The requester has a waiting request that its balance covers (R135). -/
def eligible (m : Scheduler) (r : Requester) : Bool :=
  match m.waiting.get r with
  | some c => decide (c ≤ m.balance.get r)
  | none => false

/-- The rendition lanes in round-robin order from the pointer (R136). -/
def robinOrder (l : RLane) : List RLane := [l, nextRL l, nextRL (nextRL l), nextRL (nextRL (nextRL l))]

/-- The request that a grant choice grants: ingest by the ingest pointer, the detector, the priority lane, then round
robin among the other rendition lanes (R136). -/
def grantChoice (m : Scheduler) : Option Requester :=
  let p := m.ingestPtr
  let prio := m.schedule.priority
  if eligible m (.il p) then some (.il p)
  else if eligible m (.il (otherSrc p)) then some (.il (otherSrc p))
  else if eligible m .det then some .det
  else match prio.filter (fun l => eligible m (.rl l)) with
    | some l => some (.rl l)
    | none => ((robinOrder m.roundRobin).find? (fun l => prio ≠ some l && eligible m (.rl l))).map .rl

/-- The scheduler after a grant: the cost leaves the balance, the request leaves the waiting ones, the DRAM carries the
burst, and the pointer that chose moves on (R135, R136). -/
def chargeGrant (m : Scheduler) (r : Requester) (cost : Nat) (job : Job) : Scheduler :=
  let m := { m with
    balance := m.balance.set r (m.balance.get r - cost)
    waiting := m.waiting.set r none
    dram := .burst { job := job, cost := cost, remaining := cost, live := true } }
  match r with
  | .il x => { m with ingestPtr := otherSrc x }
  | .det => m
  | .rl l => if m.schedule.priority = some l then m else { m with roundRobin := nextRL l }

/-- What the burst of a requester does: an ingest burst writes the row buffer to its place in the open frame's slot, a
detector burst reads a tile row, a rendition burst reads a band (R129). -/
def jobOf (s : State) : Requester → Job
  | .il x =>
    match (s.il.get x).rowBuffer, (s.il.get x).openFrame with
    | some b, some k => .ingest x (s.rowPlace k (s.cols x) b.row) b.data
    | _, _ => .ingest x 0 []
  | .det => .detector
  | .rl l => .band l

/-- The luma and chroma samples of a band's output: w/d × 8 luma and two planes of half the width and height (R114). -/
def bandSamples (v : Window) : Nat := outWidth v * 12

/-- The Window Engine's record at the grant of a lane's band: the FETCH's next band with its latched window, the
attribute view of the held frame's source and the stencil as they stand, and sums of 0 (R82, R120). -/
def openBand (s : State) (l : RLane) : Option BandInProgress :=
  match (s.rl.get l).fetch with
  | none => none
  | some c =>
    some { lane := l, tag := c.tag, slot := c.hold.slot, index := c.nextBand, window := c.hold.window,
           viewAttrs := match slotSource (s.slot c.hold.slot) with
             | some x => s.attr.entries.get x
             | none => []
           viewStencil := s.attr.stencil, sums := List.replicate (bandSamples c.hold.window) 0 }

/-- A granted rendition burst begins: the FETCH is in READ and the band-in-progress record stands (R120, R123). -/
def beginBand (r : Requester) (s : State) : State :=
  match r with
  | .rl l =>
    ({ s with band := openBand s l } : State).modRl l (fun x =>
      { x with fetch := x.fetch.map (fun c => { c with phase := .read }) })
  | _ => s

/-- A grant choice: made only while the DRAM is IDLE and no refresh is due (R129, R133, R137). -/
def makeGrant (s : State) : State :=
  match s.ms.dram, s.ms.refreshDue with
  | .idle, false =>
    match grantChoice s.ms with
    | none => s
    | some r =>
      match s.ms.waiting.get r with
      | none => s
      | some c => beginBand r { s with ms := chargeGrant s.ms r c (jobOf s r) }
  | _, _ => s

/-- A burst request is placed, and a grant choice is made if the DRAM can take one (R130, R137). -/
def placeRequest (r : Requester) (cost : Nat) (s : State) : State :=
  makeGrant { s with ms := { s.ms with waiting := s.ms.waiting.set r (some cost) } }

/-- A waiting request is withdrawn uncharged (R130). -/
def withdraw (r : Requester) (m : Scheduler) : Scheduler := { m with waiting := m.waiting.set r none }

/-- The requester a granted burst serves. -/
def jobRequester : Job → Requester
  | .ingest x _ _ => .il x
  | .detector => .det
  | .band l => .rl l

/-- A running burst's operation has ended: the burst runs on, for nobody (R37, R52, R125, R130). -/
def orphanBurst (r : Requester) (m : Scheduler) : Scheduler :=
  match m.dram with
  | .burst b => if jobRequester b.job = r then { m with dram := .burst { b with live := false } } else m
  | _ => m

/-- The units that the DRAM's burst or refresh still has to carry (R129). -/
def dramLoad : Dram → Nat
  | .idle => 0
  | .burst b => b.remaining
  | .refresh n => n

/-- The DRAM has carried what it still had to carry, out of the microsecond's room, and has nothing to carry: a due refresh begins,
otherwise it is IDLE (R129, R133). -/
def dramFree (m : Scheduler) : Scheduler :=
  let m := { m with room := m.room - dramLoad m.dram }
  if m.refreshDue then { m with dram := .refresh Config.refreshUnits, refreshDue := false }
  else { m with dram := .idle }

/-- A burst has completed: the DRAM is free again, and a grant choice is made among the requests that wait (R129, R137). -/
def endBurst (s : State) : State := makeGrant { s with ms := dramFree s.ms }

/-- What the DRAM still has to carry fits into what is left of the current microsecond's 64 units, so its burst or refresh may
complete (R129; notes/assumptions/6.md). -/
def mayComplete (m : Scheduler) : Bool := decide (dramLoad m.dram ≤ m.room)

/-- A pending schedule is applied: allowances, clipped balances, priority lane (R134 step 1).
DESIGN CHOICE: a schedule taken after the period event, while its refresh is due or running, is applied when that refresh ends, as
R134 step 1 says of every schedule taken and not yet applied, and not a period later (R140; notes/assumptions/28.md). -/
def applySchedule (m : Scheduler) : Scheduler :=
  match m.pendingSchedule with
  | none => m
  | some c =>
    { m with schedule := c, balance := PerReq.map₂ (fun b a => min b (capOf a)) m.balance c.allowance,
             pendingSchedule := none }

/-- The refill: each balance gains its allowance, up to the cap (R134 step 2). -/
def refill (m : Scheduler) : Scheduler :=
  { m with balance := PerReq.map₂ (fun b a => min (b + a) (capOf a)) m.balance m.schedule.allowance }

/-- Each balance at its cap under the allowances in force (R142). -/
def fillBalances (m : Scheduler) : Scheduler := { m with balance := m.schedule.allowance.map capOf }

/-- The caps that the allowances give honour every enabled source of a plan: its ingest lane's tile row and the largest
detector tile row (R2, R139). -/
def capsHonour (a : PerReq Nat) (p : Plan) : Bool :=
  srcAll.all (fun x =>
    !(p.source.get x).enabled ||
    (decide (ingestRowCost (p.source.get x).cols ≤ capOf (a.il.get x)) &&
     decide (detectorRowCost (p.source.get x).cols ≤ capOf a.det)))

/-- A rendition lane's largest band cost: of its bound window and the windows latched in its holds (R93). -/
def largestBandCost (r : RenditionLane) : Nat :=
  (r.holds.map (fun h => bandCost h.window)).foldl max
    (match r.binding with
      | some b => bandCost b.window
      | none => 0)

/-- PERIOD_EVENT (R133, R145): 1,000 µs after the previous one the refresh becomes due, and begins at once if the DRAM
is IDLE. -/
def execPeriodEvent (s : State) : Host.Outcome State Fault Refusal :=
  running s fun s =>
    if atOrBefore s.tcu.nextPeriod s.tcu.time then
      let s := { s with tcu := { s.tcu with nextPeriod := later s.tcu.nextPeriod Config.periodMicros } }
      let m := { s.ms with refreshDue := true }
      .next { s with ms := match m.dram with
        | .idle => dramFree m
        | _ => m }
    else .next s

/-- REFRESH_COMPLETE (R134): a pending schedule is applied, the balances are refilled, and a grant choice is made. -/
def execRefreshComplete (s : State) : Host.Outcome State Fault Refusal :=
  running s fun s =>
    match s.ms.dram with
    | .refresh _ =>
      if mayComplete s.ms then .next (endBurst { s with ms := refill (applySchedule s.ms) }) else .next s
    | _ => .next s

end Sys2Proof.Machine
end

