-- ==== Sys2Proof/Machine/Chapters.lean ====
section
/-! DEFINITION. Chapters and marker lines (chapter 9): the chapter decision, the chapter log, and the end of a marker
line's pulse. -/

namespace Sys2Proof.Machine

/-- The chapter decision for frame n of a source (R158). -/
def chapterDecision (u : ChapterUnit) (cls : FrameClass) (flags : FrameFlags) (n : FrameNo) : Option ChapterReason :=
  if !u.enabled || cls ≠ .scene then none
  else if flags.first then some .first
  else if flags.cue then some .cue
  else match u.last with
    | none => some .scene
    | some m => if u.gap ≤ (n - m).toNat then some .scene else none

/-- A chapter record is appended with the next sequence number, or counted as an overflow when the log is full (R161). -/
def appendChapter (c : Router) (f : SealedFrame) (changed active : Nat) (why : ChapterReason) : Router :=
  if c.log.length < Config.logDepth then
    { c with
      log := c.log ++ [{ seq := c.nextSeq, source := f.source, frame := f.number, pts := f.pts, arrival := f.arrival,
                         changed := changed, active := active, reason := why }]
      nextSeq := c.nextSeq + 1 }
  else { c with overflows := satAdd c.overflows 1 }

/-- The router's part of a decided chapter: the last-chapter frame and the record (R159 steps 2 and 3). -/
def recordChapter (c : Router) (f : SealedFrame) (changed active : Nat) (why : ChapterReason) : Router :=
  appendChapter
    { c with chapters := c.chapters.set f.source { c.chapters.get f.source with last := some f.number } }
    f changed active why

/-- A line whose end stamp the counter has reached goes LOW (R168). -/
def endPulse (now : Stamp) (m : MarkerLine) : MarkerLine :=
  match m.high with
  | some t => if atOrBefore t now then { m with high := none } else m
  | none => m

/-- MARKER_PULSE_END (R168). -/
def execMarkerPulseEnd (pin : MarkerPin) (s : State) : Host.Outcome State Fault Refusal :=
  running s fun s =>
    .next { s with clr := match pin with
      | .m0 => { s.clr with m0 := endPulse s.tcu.time s.clr.m0 }
      | .m1 => { s.clr with m1 := endPulse s.tcu.time s.clr.m1 } }

end Sys2Proof.Machine
end

