-- ==== Sys2Proof/Machine/Detector.lean ====
section
/-! DEFINITION. The Change Detector (chapter 3): the start of an analysis, the measuring of tiles, the class of a frame,
cue promotion, and the completion that makes a frame CURRENT (R11, R71). -/

namespace Sys2Proof.Machine

/-! ### The start of an analysis -/

/-- The set of the tiles of a grid whose attribute is not NONE (R49). -/
def exclusionSet (entries : List Attr) (tiles : Nat) : TileSet :=
  (List.range tiles).foldl
    (fun acc t => if entries.getD t .none = .none then acc else acc ||| BitVec.twoPow 640 t) 0

/-- The set of the first tile indices. -/
def gridSet (tiles : Nat) : TileSet := BitVec.ofNat 640 (2 ^ tiles - 1)

/-- The analysis context at the start: snapshots taken, counts 0, row 0 awaited (R49, R50). -/
def startCtx (s : State) (k : Nat) (f : SealedFrame) : AnalysisCtx :=
  let x := f.source
  { slot := k, source := x, number := f.number, arrival := f.arrival, cols := s.cols x, rows := s.rows x,
    settings := s.cd.settings.get x,
    excluded := exclusionSet (s.attr.entries.get x) (s.cols x * s.rows x),
    marked := s.cd.marks.get x &&& gridSet (s.cols x * s.rows x),
    nextRow := 0, changed := 0, active := 0, mask := 0, attrSeen := false }

/-- An idle detector takes the head of its queue: the slot is ANALYSING, the context stands, the later-write indicators
of the source are clear, and the first row's burst is requested (R48, R49, R61). -/
def startAnalysis (s : State) : State :=
  match s.cd.ctx, s.cd.queue with
  | none, k :: rest =>
    match s.slot k with
    | .queued f =>
      let c := startCtx s k f
      let s := s.setSlot k (.analysing f)
      placeRequest .det (detectorRowCost c.cols)
        { s with cd := { s.cd with queue := rest, ctx := some c, laterWrites := s.cd.laterWrites.set f.source 0 } }
    | _ => { s with cd := { s.cd with queue := rest } }
  | _, _ => s

/-! ### Measuring a tile -/

/-- The luma sample of a slot's picture at column px and line py, for a picture of c tile columns (R1). -/
def lumaAt (mem : List Host.Cell) (base cols px py : Nat) : Nat :=
  (readByte mem (base + py / 64 * (cols * Config.tileBytes) + py % 64 * (64 * cols) + px)).toNat

/-- The sum of the 256 samples of a sub-block whose first sample is at (px, py) (R53). -/
def subBlockSum (mem : List Host.Cell) (base cols px py : Nat) : Nat :=
  ((List.range 16).map (fun j => ((List.range 16).map (fun i => lumaAt mem base cols (px + i) (py + j))).sum)).sum

/-- A sub-block mean from its sum, a half rounded up (R53). -/
def subBlockMean (sum : Nat) : Byte := BitVec.ofNat 8 ((sum + 128) / 256)

/-- The sixteen sub-block means of the tile in row r and column c (R53). -/
def tileMeans (mem : List Host.Cell) (base cols r c : Nat) : List Byte :=
  (List.range 16).map (fun k =>
    subBlockMean (subBlockSum mem base cols (64 * c + 16 * (k % 4)) (64 * r + 16 * (k / 4))))

/-- The distance of two values. -/
def absDiff (a b : Nat) : Nat := (a - b) + (b - a)

/-- The distance of new means from a signature (R54). -/
def tileDistance (means signature : List Byte) : Nat :=
  (List.zipWith (fun (m g : Byte) => absDiff m.toNat g.toNat) means signature).sum

/-- A tile found changed: the signature takes the new means, ACTIVE with quiet run 0, and the last-changed number is the
frame's (R56 to R59). -/
def changedTile (n : FrameNo) (means : List Byte) : TileRec :=
  { state := .active, quietRun := 0, signature := means, lastChanged := some n }

/-- The measurement of one tile record against new means: the record after it, and whether the tile was changed (R56 to R58). -/
def measureTile (g : DetectSettings) (n : FrameNo) (means : List Byte) (t : TileRec) : TileRec × Bool :=
  let dist := tileDistance means t.signature
  match t.state with
  | .reseed => (changedTile n means, true)
  | .quiet => if g.tHi < dist then (changedTile n means, true) else (t, false)
  | .active =>
    if g.tLo < dist then (changedTile n means, true)
    else if g.quiet ≤ t.quietRun + 1 then ({ t with state := .quiet, quietRun := 0 }, false)
    else ({ t with quietRun := t.quietRun + 1 }, false)

/-- One tile's part of a row step: its record, and the context's counts, mask and attribute-seen indicator (R59, R60, R62).
`means` are the tile's new means, read only when the tile is measured. -/
def tileStep (means : List Byte) (t : Nat) (c : AnalysisCtx) (old : TileRec) : TileRec × AnalysisCtx :=
  let measured := !c.excluded.getLsbD t
  let marked := c.marked.getLsbD t
  let m := if measured then measureTile c.settings c.number means old else (old, false)
  let new := if marked then { m.1 with lastChanged := some c.number } else m.1
  (new, { c with
    changed := c.changed + bit m.2
    active := c.active + bit measured
    mask := if m.2 || marked then c.mask ||| BitVec.twoPow 640 t else c.mask
    attrSeen := c.attrSeen || marked })

/-- Every tile of row r is measured or marked, from column 0 to the last (R51). -/
def measureRow (mem : List Host.Cell) (base r : Nat) (tiles : List TileRec) (c : AnalysisCtx) : List TileRec × AnalysisCtx :=
  (List.range c.cols).foldl
    (fun (p : List TileRec × AnalysisCtx) col =>
      let t := r * c.cols + col
      let q := tileStep (tileMeans mem base c.cols r col) t p.2 (p.1.getD t TileRec.reset)
      (p.1.set t q.1, q.2)) (tiles, c)

/-! ### The class of a frame and cue promotion -/

/-- The class before cue promotion (R65). -/
def baseClass (first : Bool) (changed active percent : Nat) (mask : TileSet) : FrameClass :=
  if first || (decide (1 ≤ active) && decide (percent * active ≤ changed * 100)) then .scene
  else if mask = 0 then .hold else .patch

/-- A cue record is eligible for a frame of the source with the arrival stamp: its stamp is at or before it (R68).
DESIGN CHOICE: a cue captured after the seal at the same value of the time counter has a stamp equal to the arrival stamp, and by
this test it is eligible, although R68 also says of a cue captured after the seal that it is not (notes/assumptions/30.md). -/
def cueEligible (x : Src) (arrival : Stamp) (q : CueRec) : Bool := q.target = x && atOrBefore q.stamp arrival

/-- What a completion does with the cue FIFO: the FIFO after it, whether the frame takes CUE, and how many cues expired
(R68 to R70). -/
def examineCues (x : Src) (arrival : Stamp) (cls : FrameClass) (window : Nat) (cues : List CueRec) : List CueRec × Bool × Nat :=
  if !cues.any (cueEligible x arrival) then (cues, false, 0)
  else if cls = .hold then
    let aged := cues.map (fun q => if cueEligible x arrival q then { q with waited := q.waited + 1 } else q)
    let spent := fun (q : CueRec) => cueEligible x arrival q && decide (window ≤ q.waited)
    (aged.filter (fun q => !spent q), false, aged.countP spent)
  else (cues.filter (fun q => !cueEligible x arrival q), true, 0)

/-! ### Completion -/

/-- The pool's steps 1 to 3 of a completion: the slot is CURRENT with its verdict and the lanes bound to the source as its
owed set, and the slot that was CURRENT before is STALE (R11). -/
def supersede (x : Src) (k : Nat) (f : SealedFrame) (v : Verdict) (s : State) : State :=
  let owed : PerRL Bool := ⟨s.boundTo .r0 x, s.boundTo .r1 x, s.boundTo .r2 x, s.boundTo .r3 x⟩
  let s := match s.fpc.current.get x with
    | some j =>
      match s.slot j with
      | .analysed _ f' v' h o => s.setSlot j (.analysed false f' v' h o)
      | _ => s
    | none => s
  let s := s.setSlot k (.analysed true f v 0 owed)
  { s with fpc := { s.fpc with current := s.fpc.current.set x (some k) } }

/-- A READY notice for each lane in the frame's owed set (R11 step 5, R107). -/
def sendReady (k : Nat) (s : State) : State :=
  match s.slot k with
  | .analysed _ f v _ owed =>
    rlAll.foldl (fun s l =>
      if owed.get l then placeNotice l (.ready f.source f.number v.cls v.flags) s else s) s
  | _ => s

/-- Each lane bound to the source with a pending claim takes the new CURRENT frame (R11 step 6, R12). -/
def servePendingClaims (x : Src) (k : Nat) (s : State) : State :=
  rlAll.foldl (fun s l =>
    match (s.rl.get l).binding, (s.rl.get l).pendingClaim with
    | some b, some _ => if b.source = x then takeFrame l b k s else s
    | _, _ => s) s

/-- The FPC's completion of the slot's analysis with the detector's verdict, with the chapter decision and the SCENE and
CHAPTER events in their places (R11, R71 step 7, R159). -/
def completeFrame (k : Nat) (f : SealedFrame) (v : Verdict) (s : State) : State :=
  let x := f.source
  let old := s.fpc.current.get x
  let oldSlot := (old.map (fun j => s.slot j)).getD .free
  let why := chapterDecision (s.clr.chapters.get x) v.cls v.flags f.number
  let v := { v with flags := { v.flags with chapter := why.isSome } }
  let s := supersede x k f v s
  let s := match why with
    | some r => { s with clr := recordChapter s.clr f v.changed v.active r }
    | none => s
  let s := sendReady k s
  let s := if v.cls = .scene then fireEvent ⟨.scene, some x, some f.number⟩ s else s
  let s := if why.isSome then fireEvent ⟨.chapter, some x, some f.number⟩ s else s
  let s := servePendingClaims x k s
  match old with
  | some j => if j = k then s else examineSlot oldSlot j s
  | none => s

/-- The verdict of a finished analysis, and the cue FIFO and miss count it leaves (R63 to R70). -/
def verdictOf (c : AnalysisCtx) (first : Bool) (window : Nat) (cues : List CueRec) : Verdict × List CueRec × Nat :=
  let cls := baseClass first c.changed c.active c.settings.percent c.mask
  let e := examineCues c.source c.arrival cls window cues
  ({ cls := if e.2.1 then .scene else cls
     flags := { first := first, cue := e.2.1, chapter := false, attr := c.attrSeen }
     changed := c.changed, active := c.active, mask := c.mask }, e.1, e.2.2)

/-- The completion of an analysis (R71): the verdict, the first flag, the cues, the marks the snapshot held and no later
write renewed (R61), the FPC's completion, and then the next analysis if one waits. -/
def completeAnalysis (c : AnalysisCtx) (s : State) : State :=
  let x := c.source
  let e := verdictOf c (s.cd.first.get x) s.tcu.cueSettings.window s.tcu.cues
  let s := { s with tcu := { s.tcu with cues := e.2.1 } }
  let s := s.modCounters x (fun n => { n with cueMisses := satAdd n.cueMisses e.2.2 })
  let s := { s with cd := { s.cd with
    first := s.cd.first.set x false
    marks := s.cd.marks.set x (s.cd.marks.get x &&& ~~~(c.marked &&& ~~~(s.cd.laterWrites.get x))) } }
  let s := match s.slot c.slot with
    | .analysing f => completeFrame c.slot f e.1 s
    | _ => s
  startAnalysis { s with cd := { s.cd with ctx := none } }

/-- The row step of the analysis under way when its burst completes: the row's tiles, and then the next row's burst or the
completion (R51, R71). -/
def rowStep (c : AnalysisCtx) (s : State) : State :=
  let q := measureRow s.mem (s.rowPlace c.slot c.cols 0) c.nextRow (s.cd.tiles.get c.source) c
  let c : AnalysisCtx := { q.2 with nextRow := c.nextRow + 1 }
  let s := { s with cd := { s.cd with tiles := s.cd.tiles.set c.source q.1, ctx := some c } }
  if c.nextRow < c.rows then placeRequest .det (detectorRowCost c.cols) s else completeAnalysis c s

/-- DETECTOR_ROW_BURST_COMPLETE (R51): the burst ends with its grant choice (R137), and the row it read is measured; a
burst whose analysis was aborted is discarded (R52). -/
def execDetectorRowBurstComplete (s : State) : Host.Outcome State Fault Refusal :=
  running s fun s =>
    match s.ms.dram with
    | .burst b =>
      match b.job with
      | .detector =>
        if !mayComplete s.ms then .next s
        else match s.cd.ctx with
          | some c =>
            if !b.live then .next (endBurst s)
            else if inDram (s.rowPlace c.slot c.cols c.nextRow) (64 * c.cols * 64) then .next (rowStep c (endBurst s))
            else .fault .dramRange
          | none => .next (endBurst s)
      | _ => .next s
    | _ => .next s

end Sys2Proof.Machine
end

