-- ==== Sys2Proof/Machine/Ingest.lean ====
section
/-! DEFINITION. The ingest lanes (chapter 2): OPEN_FRAME, PUT_ROWS, SEAL_FRAME and ABANDON_FRAME as the lane executes the
request at the head of its queue, the completion of an ingest burst, and the open-wait deadline. -/

namespace Sys2Proof.Machine

/-- The lane executes the request at the head of its queue when it is one of the family's that the row stands for: on a
lane of the other family it is answered WRONG_LANE (R31, R176). With no such request at the head, or with the head already
in execution, there is nothing to execute (notes/assumptions/3.md). -/
def ingestRequest (want : ReqKind) (lane : Lane) (body : Src → Request → State → State) (s : State) :
    Host.Outcome State Fault Refusal :=
  running s fun s =>
    match readyHead s lane with
    | none => .next s
    | some r =>
      if requestKind r = some want then
        match lane with
        | .il x => .next (body x r s)
        | .rl _ => .next (answerHead lane .wrongLane [] s)
      else .next s

/-- An open that cannot be served at once is refused POOL_FULL when the lane's open-wait limit is 0, and otherwise joins the
slot wait list and becomes the lane's pending open (R22, R33). -/
def waitOrDrop (x : Src) (tag : Byte) (pts : Pts) (s : State) : State :=
  let limit := (s.il.get x).openLimit
  if limit = 0 then
    answerHead (.il x) .poolFull [] (s.modCounters x (fun c => { c with drops := satAdd c.drops 1 }))
  else
    let due := later s.tcu.time (limit * 1000)
    let s : State := { s with fpc := { s.fpc with waitList := s.fpc.waitList ++ [{ source := x, pts := pts, deadline := due }] } }
    s.modIl x (fun r => { r with pendingOpen := some { tag := tag, pts := pts, deadline := due } })

/-- OPEN_FRAME on an ingest lane: its checks, and then the open (R20, R31, R32). -/
def openBody (x : Src) (r : Request) (s : State) : State :=
  match s.fpc.plan with
  | none => answerHead (.il x) .noPlan [] s
  | some _ =>
    if !s.enabled x then answerHead (.il x) .badArg [] s
    else if (s.il.get x).openFrame.isSome then answerHead (.il x) .order [] s
    else
      let pts := BitVec.ofNat 48 (field r.payload 0 6)
      match openChoice x s with
      | some c => serveOpen x pts c s
      | none => waitOrDrop x r.tag pts s

/-- OPEN_FRAME (R32). -/
def execOpenFrame (lane : Lane) (s : State) : Host.Outcome State Fault Refusal :=
  ingestRequest .openFrame lane openBody s

/-- The rows written of a FILLING slot, 0 of another (R5). -/
def rowsWritten (s : State) (k : Nat) : Nat :=
  match s.slot k with
  | .filling _ _ n => n
  | _ => 0

/-- PUT_ROWS on an ingest lane: its checks, and then the row buffer and the burst request (R31, R35, R36). -/
def putBody (x : Src) (r : Request) (s : State) : State :=
  match s.fpc.plan with
  | none => answerHead (.il x) .noPlan [] s
  | some _ =>
    match (s.il.get x).openFrame with
    | none => answerHead (.il x) .notFilling [] s
    | some k =>
      let row := field r.payload 0 1
      let data := r.payload.drop 1
      if s.rows x ≤ row ∨ data.length ≠ s.cols x * Config.tileBytes then answerHead (.il x) .badArg [] s
      else if row ≠ rowsWritten s k then answerHead (.il x) .order (beBytes 1 (rowsWritten s k)) s
      else
        placeRequest (.il x) (ingestRowCost (s.cols x))
          (s.modIl x (fun l => { l with rowBuffer := some { row := row, data := data } }))

/-- PUT_ROWS (R35). -/
def execPutRows (lane : Lane) (s : State) : Host.Outcome State Fault Refusal :=
  ingestRequest .putRows lane putBody s

/-- The cadence record after a seal at a stamp: the timer restarted, the count 0, STALLED clear (R149). -/
def cadenceSealed (stamp : Stamp) (c : Cadence) : Cadence :=
  { c with
    timer := if c.interval = 0 then none else some (later stamp (c.interval * 10))
    repeats := 0
    stalled := false }

/-- The steps of a seal of the FILLING slot k of source y by its lane x (R9, R38, R149), and the analysis an idle detector
then starts (R48); the slot keeps its own source, which is the lane's (R7). -/
def sealSlot (x : Src) (k : Nat) (y : Src) (pts : Pts) (s : State) : State :=
  let n := s.fpc.nextFrame.get x
  let now := s.tcu.time
  let s := s.setSlot k (.queued { source := y, number := n, pts := pts, arrival := now })
  let s : State := { s with fpc := { s.fpc with nextFrame := s.fpc.nextFrame.set x (n + 1) } }
  let s : State := { s with cd := { s.cd with queue := s.cd.queue ++ [k] } }
  let s : State := { s with tcu := { s.tcu with cadence := s.tcu.cadence.set x (cadenceSealed now (s.tcu.cadence.get x)) } }
  let s := s.modIl x (fun l => { l with openFrame := none })
  startAnalysis (answerHead (.il x) .ok (beBytes 4 n.toNat ++ beBytes 4 now.toNat) s)

/-- SEAL_FRAME on an ingest lane (R31, R38, R39). -/
def sealBody (x : Src) (_ : Request) (s : State) : State :=
  match s.fpc.plan with
  | none => answerHead (.il x) .noPlan [] s
  | some _ =>
    match (s.il.get x).openFrame with
    | none => answerHead (.il x) .notFilling [] s
    | some k =>
      match s.slot k with
      | .filling y pts n =>
        if n < s.rows x then answerHead (.il x) .incomplete (beBytes 1 n) s else sealSlot x k y pts s
      | _ => answerHead (.il x) .notFilling [] s

/-- SEAL_FRAME (R38). -/
def execSealFrame (lane : Lane) (s : State) : Host.Outcome State Fault Refusal :=
  ingestRequest .sealFrame lane sealBody s

/-- ABANDON_FRAME on an ingest lane: the slot goes FREE, the request is answered, and the wait list is served (R8, R31, R40). -/
def abandonBody (x : Src) (_ : Request) (s : State) : State :=
  match s.fpc.plan with
  | none => answerHead (.il x) .noPlan [] s
  | some _ =>
    match (s.il.get x).openFrame with
    | none => answerHead (.il x) .notFilling [] s
    | some k =>
      let s := (s.setSlot k .free).modIl x (fun l => { l with openFrame := none })
      serveWaitList (answerHead (.il x) .ok [] s)

/-- ABANDON_FRAME (R40). -/
def execAbandonFrame (lane : Lane) (s : State) : Host.Outcome State Fault Refusal :=
  ingestRequest .abandonFrame lane abandonBody s

/-- OPEN_WAIT_DEADLINE (R24, R33): the entry leaves the list, the open is answered POOL_FULL and the drop counted. -/
def execOpenWaitDeadline (x : Src) (s : State) : Host.Outcome State Fault Refusal :=
  running s fun s =>
    match (s.il.get x).pendingOpen with
    | none => .next s
    | some p =>
      if atOrBefore p.deadline s.tcu.time then
        let s : State := { s with fpc := { s.fpc with waitList := s.fpc.waitList.filter (fun w => w.source ≠ x) } }
        let s := s.modIl x (fun l => { l with pendingOpen := none })
        let s := s.modCounters x (fun c => { c with drops := satAdd c.drops 1 })
        .next (answerHead (.il x) .poolFull [] s)
      else .next s

/-- One more row is written of a FILLING slot (R35). -/
def addRow : Slot → Slot
  | .filling x p n => .filling x p (n + 1)
  | k => k

/-- The lane's part of a completed row: rows written up by one, the row buffer empty, PUT_ROWS answered OK (R35). -/
def finishRow (x : Src) (s : State) : State :=
  match (s.il.get x).openFrame with
  | none => s
  | some k =>
    let s := s.setSlot k (addRow (s.slot k))
    let s := s.modIl x (fun l => { l with rowBuffer := none })
    answerHead (.il x) .ok (beBytes 1 (rowsWritten s k)) s

/-- INGEST_BURST_COMPLETE (R35, R37): the row is in the DRAM; the lane's operation is finished when it is still under way;
and the DRAM makes its next grant choice (R137). -/
def execIngestBurstComplete (s : State) : Host.Outcome State Fault Refusal :=
  running s fun s =>
    match s.ms.dram with
    | .burst b =>
      match b.job with
      | .ingest x a data =>
        if !mayComplete s.ms then .next s
        else if !inDram a data.length then .fault .dramRange
        else
          let s : State := { s with mem := writeBytes s.mem a data }
          .next (endBurst (if b.live then finishRow x s else s))
      | _ => .next s
    | _ => .next s

end Sys2Proof.Machine
end

