-- ==== Sys2Proof/Machine/Rendition.lean ====
section
/-! DEFINITION. The rendition lanes (chapter 5): BIND, UNBIND, the claims, RELEASE, FETCH_MASK, SUBSCRIBE and the
claim-wait deadline. -/

namespace Sys2Proof.Machine

/-- The lane executes the request at the head of its queue when it passes the row's test: on a lane of the other family it is
answered WRONG_LANE (R89, R176). With no such request at the head, or with the head already in execution, there is
nothing to execute (notes/assumptions/3.md). -/
def renditionRequest (test : Request → Bool) (lane : Lane) (body : RLane → Request → State → State) (s : State) :
    Host.Outcome State Fault Refusal :=
  running s fun s =>
    match readyHead s lane with
    | none => .next s
    | some r =>
      if test r then
        match lane with
        | .rl l => .next (body l r s)
        | .il _ => .next (answerHead lane .wrongLane [] s)
      else .next s

/-- A well-formed request of a kind. -/
def isKind (want : ReqKind) (r : Request) : Bool := requestKind r = some want

/-! ### Binding -/

/-- The claim mark a lane takes when it binds to a source: one below the CURRENT frame's number, or absent (R92). -/
def bindMark (x : Src) (s : State) : Option FrameNo := (s.currentFrame x).map (fun f => f.number - 1)

/-- A lane with no binding, or none after leaving its old source, takes source and window (R92). -/
def bindFresh (l : RLane) (x : Src) (v : Window) (s : State) : State :=
  s.modRl l (fun r => { r with binding := some { source := x, window := v }, mark := bindMark x s })

/-- A band cost is above the lane's cap in force, or above the cap a pending schedule will give it (R93, R140). -/
def costTooHigh (m : Scheduler) (l : RLane) (cost : Nat) : Bool :=
  decide (capOf (m.schedule.allowance.rl.get l) < cost) ||
  match m.pendingSchedule with
  | some p => decide (capOf (p.allowance.rl.get l) < cost)
  | none => false

/-- The binding and the owed sets after a BIND whose checks passed (R92). -/
def applyBind (l : RLane) (x : Src) (v : Window) (s : State) : State :=
  match (s.rl.get l).binding with
  | none => bindFresh l x v s
  | some b =>
    if b.source = x then s.modRl l (fun r => { r with binding := some { source := x, window := v } })
    else
      bindFresh l x v (leaveSource l b.source (s.modRl l (fun r => { r with binding := none, mark := none })))

/-- BIND on a rendition lane (R89, R91 to R93). -/
def bindBody (l : RLane) (r : Request) (s : State) : State :=
  match s.fpc.plan with
  | none => answerHead (.rl l) .noPlan [] s
  | some p =>
    match srcOf (field r.payload 0 1) with
    | none => answerHead (.rl l) .badArg [] s
    | some x =>
      let q := p.source.get x
      let v := windowOf r.payload
      if !q.enabled || !windowValid (64 * q.cols) (64 * q.rows) v then answerHead (.rl l) .badArg [] s
      else if costTooHigh s.ms l (bandCost v) then answerHead (.rl l) .windowCost [] s
      else if s.boundTo l (otherSrc x) && !(s.rl.get l).holds.isEmpty then answerHead (.rl l) .busy [] s
      else
        answerHead (.rl l) .ok (beBytes 2 (outWidth v) ++ beBytes 2 (outHeight v) ++ beBytes 1 (bandCount v))
          (applyBind l x v s)

/-- BIND (R92). -/
def execBind (lane : Lane) (s : State) : Host.Outcome State Fault Refusal :=
  renditionRequest (isKind .bind) lane bindBody s

/-- UNBIND on a rendition lane (R17, R89, R94). -/
def unbindBody (l : RLane) (_ : Request) (s : State) : State :=
  match s.fpc.plan with
  | none => answerHead (.rl l) .noPlan [] s
  | some _ =>
    match (s.rl.get l).binding with
    | none => answerHead (.rl l) .notBound [] s
    | some b =>
      if !(s.rl.get l).holds.isEmpty then answerHead (.rl l) .busy [] s
      else
        answerHead (.rl l) .ok []
          (leaveSource l b.source (s.modRl l (fun r => { r with binding := none, mark := none })))

/-- UNBIND (R94). -/
def execUnbind (lane : Lane) (s : State) : Host.Outcome State Fault Refusal :=
  renditionRequest (isKind .unbind) lane unbindBody s

/-! ### Claims -/

/-- A CLAIM whose kind byte is the row's, or is none of the three, whose refusal every claim row gives alike (R89;
notes/assumptions/3.md). -/
def isClaim (want : ClaimKind) (r : Request) : Bool :=
  isKind .claim r &&
  match claimKindOf (field r.payload 0 1) with
  | none => true
  | some k => k = want

/-- The common checks of a claim, and then the checks of its kind (R89). -/
def claimChecked (l : RLane) (r : Request) (kindBody : Binding → State → State) (s : State) : State :=
  match s.fpc.plan with
  | none => answerHead (.rl l) .noPlan [] s
  | some _ =>
    match claimKindOf (field r.payload 0 1) with
    | none => answerHead (.rl l) .badArg [] s
    | some _ =>
      match (s.rl.get l).binding with
      | none => answerHead (.rl l) .notBound [] s
      | some b =>
        if Config.holdDepth ≤ (s.rl.get l).holds.length then answerHead (.rl l) .holdLimit [] s
        else kindBody b s

/-- A CURRENT or STALE slot of the source, above the mark (R96). -/
def claimable (x : Src) (mark : Option FrameNo) (k : Slot) : Bool :=
  match k with
  | .analysed _ f _ _ _ => f.source = x && aboveMark mark f.number
  | _ => false

/-- A CLAIM NEXT that finds no frame waits, or is answered NONE when the claim-wait limit is 0 (R96, R97). -/
def waitClaim (l : RLane) (tag : Byte) (s : State) : State :=
  let limit := (s.rl.get l).claimLimit
  if limit = 0 then answerHead (.rl l) .noFrame [] s
  else s.modRl l (fun r => { r with pendingClaim := some { tag := tag, deadline := later s.tcu.time (limit * 1000) } })

/-- CLAIM NEXT after the common checks: the lowest analysed frame above the mark (R96). -/
def nextBody (l : RLane) (tag : Byte) (b : Binding) (s : State) : State :=
  match lowestFrame (claimable b.source (s.rl.get l).mark) s.fpc.slots with
  | some k => takeFrame l b k s
  | none => waitClaim l tag s

/-- CLAIM_NEXT (R96). -/
def execClaimNext (lane : Lane) (s : State) : Host.Outcome State Fault Refusal :=
  renditionRequest (isClaim .next) lane (fun l r s => claimChecked l r (nextBody l r.tag) s) s

/-- CLAIM LATEST after the common checks: the CURRENT frame, when it is above the mark (R98). -/
def latestBody (l : RLane) (b : Binding) (s : State) : State :=
  match s.fpc.current.get b.source with
  | none => answerHead (.rl l) .noFrame [] s
  | some k =>
    if claimable b.source (s.rl.get l).mark (s.slot k) then takeFrame l b k s
    else answerHead (.rl l) .noFrame [] s

/-- CLAIM_LATEST (R98). -/
def execClaimLatest (lane : Lane) (s : State) : Host.Outcome State Fault Refusal :=
  renditionRequest (isClaim .latest) lane (fun l r s => claimChecked l r (latestBody l) s) s

/-- The slot of the source that holds frame n. -/
def slotOfFrame (x : Src) (n : FrameNo) (slots : List Slot) : Option Nat :=
  slots.findIdx? (fun k => slotSource k = some x && slotFrame k = some n)

/-- The mark is present and n is at or below it (R99 case 1). -/
def atOrBelowMark (mark : Option FrameNo) (n : FrameNo) : Bool :=
  match mark with
  | none => false
  | some m => frameAtMost n m

/-- CLAIM NUMBER n after the common checks, answered by the first of R99's cases that applies. -/
def numberBody (l : RLane) (n : FrameNo) (b : Binding) (s : State) : State :=
  if atOrBelowMark (s.rl.get l).mark n then answerHead (.rl l) .order [] s
  else if !frameBelow n (s.fpc.nextFrame.get b.source) then answerHead (.rl l) .notYet [] s
  else match slotOfFrame b.source n s.fpc.slots with
    | none => answerHead (.rl l) .gone [] s
    | some k =>
      match s.slot k with
      | .analysed _ _ _ _ _ => takeFrame l b k s
      | _ => answerHead (.rl l) .notYet [] s

/-- CLAIM_NUMBER (R99). -/
def execClaimNumber (lane : Lane) (s : State) : Host.Outcome State Fault Refusal :=
  renditionRequest (isClaim .number) lane
    (fun l r s => claimChecked l r (numberBody l (BitVec.ofNat 32 (field r.payload 1 4))) s) s

/-- CLAIM_WAIT_DEADLINE (R97): the pending claim is answered NONE. -/
def execClaimWaitDeadline (l : RLane) (s : State) : Host.Outcome State Fault Refusal :=
  running s fun s =>
    match (s.rl.get l).pendingClaim with
    | none => .next s
    | some p =>
      if atOrBefore p.deadline s.tcu.time then
        .next (answerHead (.rl l) .noFrame [] (s.modRl l (fun r => { r with pendingClaim := none })))
      else .next s

/-! ### Releasing, masks and subscriptions -/

/-- The hold list entry that names the slot (R100). -/
def holdOf (r : RenditionLane) (k : Nat) : Option Hold := r.holds.find? (fun h => h.slot = k)

/-- RELEASE on a rendition lane (R16, R89, R100). -/
def releaseBody (l : RLane) (r : Request) (s : State) : State :=
  match s.fpc.plan with
  | none => answerHead (.rl l) .noPlan [] s
  | some _ =>
    let k := field r.payload 0 1
    match holdOf (s.rl.get l) k with
    | none => answerHead (.rl l) .notHeld [] s
    | some _ =>
      let before := s.fpc.slots
      let s := s.modRl l (fun x => { x with holds := x.holds.filter (fun h => h.slot ≠ k) })
      answerHead (.rl l) .ok [] (settle before (s.setSlot k (dropHold (s.slot k))))

/-- RELEASE (R100). -/
def execRelease (lane : Lane) (s : State) : Host.Outcome State Fault Refusal :=
  renditionRequest (isKind .release) lane releaseBody s

/-- The frame's own change mask (R72). -/
def frameMask (s : State) (k : Nat) : TileSet :=
  match s.slot k with
  | .analysed _ _ v _ _ => v.mask
  | _ => 0

/-- The tiles of the source's grid whose live last-changed number is above m (R73). -/
def sinceMask (s : State) (x : Src) (m : FrameNo) : TileSet :=
  (List.range (s.cols x * s.rows x)).foldl
    (fun acc t =>
      match ((s.cd.tiles.get x).getD t TileRec.reset).lastChanged with
      | some n => if frameBelow m n then acc ||| BitVec.twoPow 640 t else acc
      | none => acc) 0

/-- A FETCH_MASK whose mode byte is the row's, or is neither, whose refusal both rows give alike (R89). -/
def isFetchMask (want : MaskMode) (r : Request) : Bool :=
  isKind .fetchMask r &&
  match maskModeOf (field r.payload 1 1) with
  | none => true
  | some m => m = want

/-- The checks of a FETCH_MASK, and then its mask (R89, R102). -/
def maskChecked (l : RLane) (r : Request) (mask : Nat → State → TileSet) (s : State) : State :=
  match s.fpc.plan with
  | none => answerHead (.rl l) .noPlan [] s
  | some _ =>
    let k := field r.payload 0 1
    match holdOf (s.rl.get l) k with
    | none => answerHead (.rl l) .notHeld [] s
    | some _ =>
      match maskModeOf (field r.payload 1 1) with
      | none => answerHead (.rl l) .badArg [] s
      | some _ => answerHead (.rl l) .ok (maskBytes (mask k s)) s

/-- FETCH_MASK_FRAME (R72). -/
def execFetchMaskFrame (lane : Lane) (s : State) : Host.Outcome State Fault Refusal :=
  renditionRequest (isFetchMask .frame) lane (fun l r s => maskChecked l r (fun k s => frameMask s k) s) s

/-- FETCH_MASK_SINCE (R73). -/
def execFetchMaskSince (lane : Lane) (s : State) : Host.Outcome State Fault Refusal :=
  renditionRequest (isFetchMask .since) lane
    (fun l r s => maskChecked l r
      (fun k s => match slotSource (s.slot k) with
        | some x => sinceMask s x (BitVec.ofNat 32 (field r.payload 2 4))
        | none => 0) s) s

/-- SUBSCRIBE on a rendition lane: the six bits given replace the mask (R103). -/
def subscribeBody (l : RLane) (r : Request) (s : State) : State :=
  answerHead (.rl l) .ok []
    (s.modRl l (fun x => { x with subs := BitVec.ofNat 6 (field r.payload 0 1) }))

/-- SUBSCRIBE (R103). -/
def execSubscribe (lane : Lane) (s : State) : Host.Outcome State Fault Refusal :=
  renditionRequest (isKind .subscribe) lane subscribeBody s

end Sys2Proof.Machine
end

