-- ==== Sys2Proof/Machine/WindowEngine.lean ====
section
/-! DEFINITION. The Window Engine (chapter 6) with the read-out composition of chapter 4: FETCH, the completion of a band's
burst, and the transmitter of a lane (R90, R123, R124). -/

namespace Sys2Proof.Machine

/-! ### FETCH -/

/-- FETCH on a rendition lane: its checks, and then the context, shortened to the hold's bands, with the first band's
burst requested (R89, R121, R122). -/
def fetchBody (l : RLane) (r : Request) (s : State) : State :=
  match s.fpc.plan with
  | none => answerHead (.rl l) .noPlan [] s
  | some _ =>
    match holdOf (s.rl.get l) (field r.payload 0 1) with
    | none => answerHead (.rl l) .notHeld [] s
    | some h =>
      let f := field r.payload 1 1
      let c := field r.payload 2 1
      if c = 0 ∨ bandCount h.window ≤ f then answerHead (.rl l) .badArg [] s
      else
        let ctx : FetchCtx :=
          { tag := r.tag, hold := h, nextBand := f, lastBand := min (f + c - 1) (bandCount h.window - 1),
            served := 0, phase := .request }
        let s := s.modRl l (fun x => { x with fetch := some ctx })
        if (s.rl.get l).bandBuffer.isNone then placeRequest (.rl l) (bandCost h.window) s else s

/-- FETCH (R122). -/
def execFetch (lane : Lane) (s : State) : Host.Outcome State Fault Refusal :=
  renditionRequest (isKind .fetch) lane fetchBody s

/-! ### Composition -/

/-- What a sample is composed from: the DRAM, where the slot's picture begins, the source's geometry, and the band's
attribute view with the latched badge flag (R82, R84, R85). -/
structure ReadOut where
  mem : List Host.Cell
  base : Nat
  cols : Nat
  rows : Nat
  attrs : List Attr
  stencil : Stencil
  badge : Bool

/-- The picture's width in luma samples. -/
def ReadOut.width (v : ReadOut) : Nat := 64 * v.cols

/-- The picture's height in luma samples. -/
def ReadOut.height (v : ReadOut) : Nat := 64 * v.rows

/-- The attribute, in the band's view, of the tile in row tr and column tc. -/
def ReadOut.attrAt (v : ReadOut) (tr tc : Nat) : Attr := v.attrs.getD (tr * v.cols + tc) .none

/-- The stencil's luma value at a source position (R77). -/
def stencilLuma (t : Stencil) (x y : Nat) : Nat :=
  if (t.lines.getD (y % 64) 0).getLsbD (x % 64) then t.fg.toNat else t.bg.toNat

/-- The composed luma sample at a source position, after clamping it into the picture (R84, R115). -/
def composeLuma (v : ReadOut) (x y : Nat) : Nat :=
  let x := min x (v.width - 1)
  let y := min y (v.height - 1)
  match v.attrAt (y / 64) (x / 64) with
  | .privacy => 16
  | .badge => if v.badge then stencilLuma v.stencil x y else lumaAt v.mem v.base v.cols x y
  | _ => lumaAt v.mem v.base v.cols x y

/-- The two chroma planes. -/
inductive ChromaPlane where
  | u
  | v
  deriving DecidableEq, Repr

/-- The stored chroma sample of a plane at (cx, cy): within a tile row the 32 U lines follow the 64 luma lines, and the 32 V
lines follow those (R1). -/
def chromaAt (mem : List Host.Cell) (base cols : Nat) (p : ChromaPlane) (cx cy : Nat) : Nat :=
  let width := 64 * cols
  let plane := match p with
    | .u => 0
    | .v => 32 * (width / 2)
  (readByte mem (base + cy / 32 * (cols * Config.tileBytes) + 64 * width + plane + cy % 32 * (width / 2) + cx)).toNat

/-- The composed chroma sample at a chroma position, after clamping it into the plane (R85, R116). -/
def composeChroma (v : ReadOut) (p : ChromaPlane) (cx cy : Nat) : Nat :=
  let cx := min cx (v.width / 2 - 1)
  let cy := min cy (v.height / 2 - 1)
  match v.attrAt (2 * cy / 64) (2 * cx / 64) with
  | .privacy => 128
  | .badge => if v.badge then 128 else chromaAt v.mem v.base v.cols p cx cy
  | _ => chromaAt v.mem v.base v.cols p cx cy

/-! ### Averaging -/

/-- The sum of a sample over the d × d positions of a block (R115, R116, R118). -/
def blockSum (d : Nat) (sample : Nat → Nat → Nat) (x y : Nat) : Nat :=
  ((List.range d).map (fun b => ((List.range d).map (fun a => sample (x + a) (y + b))).sum)).sum

/-- The rounded average of a block of n values with sum S, a half rounded up (R118). -/
def blockMean (n S : Nat) : Nat := (S + n / 2) / n

/-- The block sum of the output luma sample (ox, oy) (R115). -/
def lumaSum (v : ReadOut) (w : Window) (ox oy : Nat) : Nat :=
  blockSum w.d (composeLuma v) (w.x0 + w.d * ox) (w.y0 + w.d * oy)

/-- The block sum of the output chroma sample (ocx, ocy) of a plane (R116). -/
def chromaSum (v : ReadOut) (w : Window) (p : ChromaPlane) (ocx ocy : Nat) : Nat :=
  blockSum w.d (composeChroma v p) (w.x0 / 2 + w.d * ocx) (w.y0 / 2 + w.d * ocy)

/-- The block sums of band b in the order of its output data: eight luma lines, four U lines, four V lines (R114, R119). -/
def bandSums (v : ReadOut) (w : Window) (b : Nat) : List Nat :=
  let lines := fun (first count width : Nat) (at' : Nat → Nat → Nat) =>
    (List.range count).flatMap (fun j => (List.range width).map (fun i => at' i (first + j)))
  lines (8 * b) 8 (outWidth w) (lumaSum v w) ++
  lines (4 * b) 4 (outWidth w / 2) (chromaSum v w .u) ++
  lines (4 * b) 4 (outWidth w / 2) (chromaSum v w .v)

/-- The output bytes from a band's finished sums (R118, R120). -/
def bandBytes (d : Nat) (sums : List Nat) : List Byte := sums.map (fun S => BitVec.ofNat 8 (blockMean (d * d) S))

/-- What a band in progress is composed from, for the source of its slot (R82, R120). -/
def readOutOf (s : State) (p : BandInProgress) (x : Src) : ReadOut :=
  { mem := s.mem, base := s.rowPlace p.slot (s.cols x) 0, cols := s.cols x, rows := s.rows x, attrs := p.viewAttrs,
    stencil := p.viewStencil, badge := p.window.badge }

/-- The finished band of a record in progress: its sums, with every position of the burst added, divided (R118, R120). -/
def finishedBand (s : State) (p : BandInProgress) (x : Src) : Band :=
  { tag := p.tag, slot := p.slot, index := p.index,
    data := bandBytes p.window.d (List.zipWith (· + ·) p.sums (bandSums (readOutOf s p x) p.window p.index)) }

/-- The finished band enters the lane's band buffer and waits to be sent, and the FETCH is in SEND (R121, R123). -/
def bufferBand (l : RLane) (b : Band) (s : State) : State :=
  s.modRl l (fun r => { r with
    bandBuffer := some b
    fetch := r.fetch.map (fun c => { c with phase := .send })
    link := { r.link with outgoing := r.link.outgoing ++ [.bandData] } })

/-- BAND_BURST_COMPLETE (R120, R123): the band-in-progress record is removed, the finished band is placed in the band buffer
unless a reset has ended its FETCH (R125, R126), and the DRAM makes its next grant choice (R137). -/
def execBandBurstComplete (s : State) : Host.Outcome State Fault Refusal :=
  running s fun s =>
    match s.ms.dram with
    | .burst b =>
      match b.job with
      | .band l =>
        if !mayComplete s.ms then .next s
        else
          let t : State := { s with band := none }
          match b.live, s.band with
          | true, some p =>
            match slotSource (s.slot p.slot) with
            | some x =>
              if inDram (s.rowPlace p.slot (s.cols x) 0) (s.rows x * (s.cols x * Config.tileBytes)) then
                .next (endBurst (bufferBand l (finishedBand s p x) t))
              else .fault .dramRange
            | none => .next (endBurst t)
          | _, _ => .next (endBurst t)
      | _ => .next s
    | _ => .next s

/-! ### The transmitter -/

/-- The record the lane's transmitter sends next, and the state without it: the head of the notice queue with the overrun
indicator's flag, otherwise the oldest waiting answer or band (R90, R105); but what a soft reset left waiting goes before any notice
(R178). A lane that is DOWN sends nothing (R171). -/
def takeOutgoing (lane : Lane) (s : State) : Option (OutRecord × State) :=
  let k := s.link lane
  if !k.up then none
  else
    let queued : Option (OutRecord × State) :=
      match k.outgoing with
      | [] => none
      | .answer a :: rest =>
        some (.answer a, s.modLink lane (fun k => { k with outgoing := rest, ahead := k.ahead - 1 }))
      | .bandData :: rest =>
        match lane with
        | .il _ => none
        | .rl l =>
          match (s.rl.get l).bandBuffer with
          | some b => some (.band b, s.modLink lane (fun k => { k with outgoing := rest, ahead := k.ahead - 1 }))
          | none => none
    match lane with
    | .il _ => queued
    | .rl l =>
      if 0 < k.ahead then queued
      else match (s.rl.get l).notices with
        | n :: rest =>
          some (.notice (s.rl.get l).overrun n, s.modRl l (fun r => { r with notices := rest, overrun := false }))
        | [] => queued

/-- A free transmitter begins to send the lane's next record, if there is one (R90). -/
def beginSend (lane : Lane) (s : State) : State :=
  if (s.link lane).sending.isSome then s
  else match takeOutgoing lane s with
    | some (r, t) => t.modLink lane (fun k => { k with sending := some { record := r, live := true } })
    | none => s

/-- The band of a FETCH has been sent in full: the buffer is empty, the band counts as served, and the FETCH is answered or
its next band's burst requested (R123, R124). -/
def bandSent (l : RLane) (s : State) : State :=
  match (s.rl.get l).fetch with
  | none => s.modRl l (fun r => { r with bandBuffer := none })
  | some c =>
    if c.nextBand = c.lastBand then
      answerHead (.rl l) .ok (beBytes 1 (c.served + 1))
        (s.modRl l (fun r => { r with bandBuffer := none, fetch := none }))
    else
      placeRequest (.rl l) (bandCost c.hold.window)
        (s.modRl l (fun r => { r with
          bandBuffer := none
          fetch := some { c with nextBand := c.nextBand + 1, served := c.served + 1, phase := .request } }))

/-- The record under way has been sent in full (R90, R121). -/
def endSend (lane : Lane) (s : State) : State :=
  match (s.link lane).sending with
  | none => s
  | some d =>
    let s := s.modLink lane (fun k => { k with sending := none, lastSent := recordBytes d.record })
    match d.record, d.live, lane with
    | .band _, true, .rl l => bandSent l s
    | _, _, _ => s

/-- TRANSMIT_RECORD (R90): a whole record is sent, or its sending begins or ends (notes/assumptions/4.md). -/
def execTransmitRecord (lane : Lane) (part : SendPart) (s : State) : Host.Outcome State Fault Refusal :=
  running s fun s =>
    match part with
    | .start => .next (beginSend lane s)
    | .finish => .next (endSend lane s)
    | .whole => if (s.link lane).sending.isSome then .next s else .next (endSend lane (beginSend lane s))

end Sys2Proof.Machine
end

