-- ==== Sys2Proof/Machine/Cadence.lean ====
section
/-! DEFINITION. The Timebase and Cadence Unit (chapter 8): cadence expiries, the cue line and its records, and what the
passing of a microsecond does. -/

namespace Sys2Proof.Machine

/-- A REPEAT notice for each lane bound to the source (R108, R147 step 3). -/
def sendRepeats (x : Src) (n : FrameNo) (count : Count16) (s : State) : State :=
  rlAll.foldl (fun s l => if s.boundTo l x then placeNotice l (.repeated x n count) s else s) s

def State.modCadence (s : State) (x : Src) (f : Cadence → Cadence) : State :=
  { s with tcu := { s.tcu with cadence := s.tcu.cadence.set x (f (s.tcu.cadence.get x)) } }

/-- The stall check of an expiry: at K or more expiries with STALLED clear, the condition is set and STALLED fires (R148). -/
def checkStall (x : Src) (n : FrameNo) (s : State) : State :=
  let c := s.tcu.cadence.get x
  if c.stallLimit ≤ c.repeats.toNat ∧ !c.stalled then
    fireEvent ⟨.stalled, some x, some n⟩ (s.modCadence x (fun c => { c with stalled := true }))
  else s

/-- What an expiry does when the source has a CURRENT frame numbered n (R147 steps 1 to 4). -/
def repeatFrame (x : Src) (n : FrameNo) (s : State) : State :=
  let s := s.modCadence x (fun c => { c with repeats := satAdd c.repeats 1 })
  let s := s.modCounters x (fun c => { c with repeats := satAdd c.repeats 1 })
  checkStall x n (sendRepeats x n (s.tcu.cadence.get x).repeats s)

/-- CADENCE_EXPIRY (R147): the deadline reached is taken, and the next one is set from it. -/
def execCadenceExpiry (x : Src) (s : State) : Host.Outcome State Fault Refusal :=
  running s fun s =>
    match (s.tcu.cadence.get x).timer with
    | none => .next s
    | some t =>
      if atOrBefore t s.tcu.time then
        let s := match s.currentFrame x with
          | some f => repeatFrame x f.number s
          | none => s
        .next (s.modCadence x (fun c => { c with timer := some (later t (c.interval * 10)) }))
      else .next s

/-- The edge is of the kind the edge setting selects (R151). -/
def edgeSelected (g : EdgeSetting) (e : CueEdge) : Bool :=
  match g, e with
  | .rising, .rising => true
  | .falling, .falling => true
  | .both, _ => true
  | _, _ => false

/-- An accepted edge's cue record joins the cue FIFO and a CUE event fires; a full FIFO drops and counts it (R152). -/
def captureCue (s : State) : State :=
  let q := s.tcu.cueSettings
  if s.tcu.cues.length < Config.cueDepth then
    fireEvent ⟨.cue, some q.target, none⟩
      { s with tcu := { s.tcu with cues := s.tcu.cues ++ [{ stamp := s.tcu.time, target := q.target, waited := 0 }] } }
  else { s with tcu := { s.tcu with cueOverruns := satAdd s.tcu.cueOverruns 1 } }

/-- CUE_EDGE (R151, R152): an edge is accepted when the line is enabled, the edge is selected and no spacing hold stands. -/
def execCueEdge (edge : CueEdge) (s : State) : Host.Outcome State Fault Refusal :=
  running s fun s =>
    let q := s.tcu.cueSettings
    if q.enabled ∧ edgeSelected q.edge edge ∧ s.tcu.spacingHold.isNone then
      let hold := if q.spacing = 0 then none else some (later s.tcu.time (q.spacing * 1000))
      .next (captureCue { s with tcu := { s.tcu with spacingHold := hold } })
    else .next s

/-- SPACING_HOLD_END (R151). -/
def execSpacingHoldEnd (s : State) : Host.Outcome State Fault Refusal :=
  running s fun s =>
    match s.tcu.spacingHold with
    | none => .next s
    | some t =>
      if atOrBefore t s.tcu.time then .next { s with tcu := { s.tcu with spacingHold := none } } else .next s

/-- A cue record has reached its age deadline (R154). -/
def cueAged (now : Stamp) (q : CueRec) : Bool := atOrBefore (later q.stamp Config.cueAge) now

/-- CUE_AGE_EXPIRY (R154): the oldest record that has reached its age deadline is removed and counts as a cue miss. -/
def execCueAgeExpiry (s : State) : Host.Outcome State Fault Refusal :=
  running s fun s =>
    match s.tcu.cues.find? (cueAged s.tcu.time) with
    | none => .next s
    | some q =>
      let s : State := { s with tcu := { s.tcu with cues := s.tcu.cues.eraseP (cueAged s.tcu.time) } }
      .next (s.modCounters q.target (fun c => { c with cueMisses := satAdd c.cueMisses 1 }))

/-! ### The passing of time -/

/-- The DRAM carries so many units more of its burst or refresh (R129). -/
def carryUnits (n : Nat) : Dram → Dram
  | .idle => .idle
  | .burst b => .burst { b with remaining := b.remaining - n }
  | .refresh k => .refresh (k - n)

/-- The rest of the microsecond passes: the DRAM carries what is left of its 64 units, the time counter advances by one, and the
next microsecond has 64 units again (R129, R143). -/
def tick (s : State) : State :=
  { s with
    tcu := { s.tcu with time := s.tcu.time + 1 }
    ms := { s.ms with dram := carryUnits s.ms.room s.ms.dram, room := Config.unitsPerMicro } }

/-- A deadline, when present, is at or before the time counter (R144). -/
def reached (s : State) (d : Option Stamp) : Bool :=
  match d with
  | some t => atOrBefore t s.tcu.time
  | none => false

/-- The DRAM's end, when its burst or refresh ends within the current microsecond (R129). -/
def dueDram (m : Scheduler) : Option Instr :=
  match m.dram with
  | .idle => none
  | .refresh _ => if mayComplete m then some .refreshComplete else none
  | .burst b =>
    if !mayComplete m then none
    else match b.job with
      | .ingest _ _ _ => some .ingestBurstComplete
      | .detector => some .detectorRowBurstComplete
      | .band _ => some .bandBurstComplete

/-- The events that must be taken before time goes on: every deadline at or before the time counter, and the end of a burst or
refresh that ends within the current microsecond (R129, R144, R145). The order is the model's (notes/assumptions/5.md).
DESIGN CHOICE: a request that stands ready at the head of a lane's queue is not among them; it is executed and checked when its row is
taken, and time and other commands may come before that (R175, R176; notes/assumptions/32.md). -/
def dueEvent (s : State) : Option Instr :=
  if reached s s.tcu.spacingHold then some .spacingHoldEnd
  else if reached s s.clr.m0.high then some (.markerPulseEnd .m0)
  else if reached s s.clr.m1.high then some (.markerPulseEnd .m1)
  else if s.tcu.cues.any (cueAged s.tcu.time) then some .cueAgeExpiry
  else match srcAll.find? (fun x => reached s ((s.il.get x).pendingOpen.map PendingOpen.deadline)) with
    | some x => some (.openWaitDeadline x)
    | none =>
      match rlAll.find? (fun l => reached s ((s.rl.get l).pendingClaim.map PendingClaim.deadline)) with
      | some l => some (.claimWaitDeadline l)
      | none =>
        match srcAll.find? (fun x => reached s (s.tcu.cadence.get x).timer) with
        | some x => some (.cadenceExpiry x)
        | none =>
          if reached s (some s.tcu.nextPeriod) then some .periodEvent else dueDram s.ms

end Sys2Proof.Machine
end

