-- ==== Sys2Proof/Machine/Resets.lean ====
section
/-! DEFINITION. Resets: of a lane (R28, R43, R111, R125, R141, R172), of the whole part by SOFT_RESET (R27, R45, R74, R112,
R126, R142, R156, R170, R178, R196), and the start-up state (R195) with the commands that reach it. -/

namespace Sys2Proof.Machine

/-! ### What restarting the numbering does to the detector -/

/-- Every tile record RESEED, every mark clear, both first flags set, no analysis and no queue (R55, R61, R64, R74); the
settings are kept. -/
def reseedDetector (d : Detector) : Detector := { Detector.reset with settings := d.settings }

/-- The timebase's part of restarting the numbering: cue FIFO empty, spacing hold absent, repeat counts 0, STALLED clear
(R4, R156). -/
def restartTimebase (t : Timebase) : Timebase :=
  { t with
    cues := [], spacingHold := none
    cadence := t.cadence.map (fun c => { c with repeats := 0, stalled := false }) }

/-- Each source's last-chapter frame becomes absent (R157). -/
def restartChapters (c : Router) : Router := { c with chapters := c.chapters.map (fun u => { u with last := none }) }

/-! ### Lane reset -/

/-- The link's part of a lane reset: nothing waits or is being sent, the consecutive bad count is 0, and the lane is DOWN (R172). -/
def resetLink (k : Link) : Link :=
  { k with up := false, queue := [], outgoing := [], ahead := 0, sending := none, badRun := 0 }

/-- The scheduler's part of a lane reset: the waiting request is withdrawn, a granted burst runs on for nobody (R130, R141). -/
def dropRequests (r : Requester) (s : State) : State := { s with ms := orphanBurst r (withdraw r s.ms) }

/-- A reset of an ingest lane (R28, R43). -/
def resetIngestLane (x : Src) (s : State) : State :=
  let was := (s.il.get x).openFrame
  let s := dropRequests (.il x) s
  let s := s.modIl x (fun r => { r with
    link := resetLink r.link, openFrame := none, pendingOpen := none, rowBuffer := none })
  let s := { s with fpc := { s.fpc with waitList := s.fpc.waitList.filter (fun w => w.source ≠ x) } }
  match was with
  | some k => serveWaitList (s.setSlot k .free)
  | none => s

/-- The slots after a lane's holds are released and it has left every owed set (R28). -/
def releaseAll (l : RLane) (holds : List Hold) (slots : List Slot) : List Slot :=
  (slots.mapIdx (fun i k => if holds.any (fun h => h.slot = i) then dropHold k else k)).map (leaveOwed l)

/-- A rendition lane record after a reset of the lane (R88, R111, R125). -/
def resetRenditionRecord (r : RenditionLane) : RenditionLane :=
  { r with
    link := resetLink r.link, binding := none, mark := none, holds := [], pendingClaim := none, notices := [],
    overrun := false, subs := 0, fetch := none, bandBuffer := none }

/-- A reset of a rendition lane (R28, R111, R125): its record first, then the slots it releases, examined in the order of
R18. -/
def resetRenditionLane (l : RLane) (s : State) : State :=
  let holds := (s.rl.get l).holds
  let before := s.fpc.slots
  let s := dropRequests (.rl l) s
  let s := s.modRl l resetRenditionRecord
  settle before { s with fpc := { s.fpc with slots := releaseAll l holds s.fpc.slots } }

/-- A reset of a lane, with its flag in the reset cause record (R172, R194). -/
def resetLane (lane : Lane) (s : State) : State :=
  let s := { s with mlu := { s.mlu with cause := s.mlu.cause ||| causeLane lane } }
  match lane with
  | .il x => resetIngestLane x s
  | .rl l => resetRenditionLane l s

/-! ### Soft reset -/

/-- The ABORTED answers of a queue's requests, in arrival order (R178). -/
def abortAnswers (queue : List Request) : List Outgoing :=
  queue.map (fun r => .answer { tag := r.tag, kind := r.kind, code := .aborted, body := [] })

/-- A waiting outgoing record is an answer, and not the band in the buffer. -/
def isAnswer : Outgoing → Bool
  | .answer _ => true
  | .bandData => false

/-- The link's part of a soft reset: the answers that wait are kept, the band in the buffer is discarded, a record partly sent
is completed for nobody, and every request is answered ABORTED; all these answers leave before any record produced afterwards
(R112, R126, R174, R178). -/
def abortLink (k : Link) : Link :=
  let kept := k.outgoing.filter isAnswer ++ abortAnswers k.queue
  { k with
    queue := []
    outgoing := kept
    ahead := kept.length
    sending := k.sending.map (fun d => { d with live := false })
    errors := 0, badRun := 0 }

/-- An ingest lane's part of a soft reset (R30, R45). -/
def softIngest (r : IngestLane) : IngestLane :=
  { r with link := abortLink r.link, openFrame := none, pendingOpen := none, rowBuffer := none }

/-- A rendition lane's part of a soft reset (R88, R112, R126). -/
def softRendition (r : RenditionLane) : RenditionLane :=
  { r with
    link := abortLink r.link, binding := none, mark := none, holds := [], pendingClaim := none, notices := [],
    overrun := false, skipped := 0, lost := 0, noticeOverruns := 0, fetch := none, bandBuffer := none }

/-- The pool's part of a soft reset: every slot FREE, numbering restarted, the wait list empty (R27). -/
def softPool (f : Fpc) : Fpc :=
  { f with
    slots := f.slots.map (fun _ => .free), current := ⟨none, none⟩, nextFrame := ⟨0, 0⟩, waitList := [] }

/-- A burst that is running runs on for nobody; a refresh runs on (R129, R142). -/
def softDram : Dram → Dram
  | .burst b => .burst { b with live := false }
  | d => d

/-- The scheduler's part of a soft reset (R142). -/
def softScheduler (m : Scheduler) : Scheduler :=
  fillBalances { m with
    dram := softDram m.dram
    waiting := ⟨⟨none, none⟩, none, ⟨none, none, none, none⟩⟩
    ingestPtr := .s0, roundRobin := .r0 }

/-- The router's part of a soft reset (R170). -/
def softRouter (c : Router) : Router :=
  { restartChapters c with overflows := 0, markers := [], markerOverrun := false, markerOverruns := 0 }

/-- A soft reset of the whole part (R196).
DESIGN CHOICE: the band-in-progress record is removed here, as R120 says, and not when the burst of the ended FETCH completes, as R126
says by R125's table (notes/assumptions/31.md). -/
def softResetPart (s : State) : State :=
  { s with
    fpc := softPool s.fpc
    il := s.il.map softIngest
    rl := s.rl.map softRendition
    cd := reseedDetector s.cd
    band := none
    ms := softScheduler s.ms
    tcu := { restartTimebase s.tcu with cueOverruns := 0 }
    clr := softRouter s.clr
    mlu := { s.mlu with
      cause := s.mlu.cause ||| causeSoft
      counters := ⟨SourceCounters.reset, SourceCounters.reset⟩ } }

/-! ### Power-on and board reset -/

/-- The start-up state (R195) with a reset cause record: the DRAM keeps its bytes, the chip select input its level, and the commands
that wait go on waiting. -/
def startUp (s : State) (cause : BitVec 9) : State :=
  { State.reset with
    pending := s.pending
    mem := s.mem
    mlu := { Mlu.reset with cause := cause, csnLow := s.mlu.csnLow } }

/-- POWER_ON_RESET (R194, R195): every cause flag clear, then POWER_ON set.
DEDUCED: power applied while RSTN is low does not release RSTN, so the part stands in the start-up state until BOARD_RESET, the
release (R195; notes/assumptions/13.md). -/
def execPowerOnReset (s : State) : Host.Outcome State Fault Refusal := .next { startUp s 1 with rstnLow := s.rstnLow }

/-- BOARD_RESET (R194, R195): RSTN is released; BOARD set, the other cause flags kept. -/
def execBoardReset (s : State) : Host.Outcome State Fault Refusal := .next (startUp s (s.mlu.cause ||| causeBoard))

/-- A link whose work has ended without answers (R195). -/
def stopLink (k : Link) : Link := { k with queue := [], outgoing := [], ahead := 0, sending := none }

/-- RSTN_ASSERTED (R187, R195): RSTN falls. Work under way ends without a result or an answer, and a management frame in
progress is abandoned; what the start-up state replaces at the release stands until then, the levels of ATTN, M0 and M1 among it
(DESIGN CHOICE, notes/assumptions/9.md and 29.md). -/
def execRstnAsserted (s : State) : Host.Outcome State Fault Refusal :=
  .next { s with
    rstnLow := true
    fpc := { s.fpc with waitList := [] }
    il := s.il.map (fun r => { r with
      link := stopLink r.link, openFrame := none, pendingOpen := none, rowBuffer := none })
    rl := s.rl.map (fun r => { r with
      link := stopLink r.link, pendingClaim := none, fetch := none, bandBuffer := none })
    cd := { s.cd with queue := [], ctx := none }
    band := none
    ms := { s.ms with
      dram := .idle, room := Config.unitsPerMicro, refreshDue := false, waiting := ⟨⟨none, none⟩, none, ⟨none, none, none, none⟩⟩ }
    mlu := { s.mlu with staging := [], frame := .idle, result := none, sent := [] } }

end Sys2Proof.Machine
end

