-- ==== Sys2Proof/Machine/LaneLink.lean ====
section
/-! DEFINITION. The lane links (chapter 10): training, loss of the link, the arrival of a record, and a malformed request. -/

namespace Sys2Proof.Machine

/-- LINK_TRAINING_COMPLETE (R171): a DOWN lane becomes UP. -/
def execLinkTrainingComplete (lane : Lane) (s : State) : Host.Outcome State Fault Refusal :=
  running s fun s => .next (s.modLink lane (fun k => { k with up := true }))

/-- LINK_LOSS (R172): the loss of an UP lane's link resets the lane; on a DOWN lane training starts again. -/
def execLinkLoss (lane : Lane) (s : State) : Host.Outcome State Fault Refusal :=
  running s fun s => if (s.link lane).up then .next (resetLane lane s) else .next s

/-- A good record joins the request queue, or is answered QUEUE_FULL when the queue holds four (R174, R175). -/
def queueRequest (lane : Lane) (r : Request) (s : State) : State :=
  let s := s.modLink lane (fun k => { k with badRun := 0 })
  if (s.link lane).queue.length < Config.queueDepth then
    s.modLink lane (fun k => { k with queue := k.queue ++ [r] })
  else pushAnswer lane { tag := r.tag, kind := r.kind, code := .queueFull, body := [] } s

/-- A bad record is discarded and counted; the fourth in a row resets the lane (R172, R174). -/
def countBadRecord (lane : Lane) (s : State) : State :=
  let s := s.modLink lane (fun k => { k with errors := satAdd k.errors 1, badRun := k.badRun + 1 })
  if Config.badRunLimit ≤ (s.link lane).badRun then resetLane lane s else s

/-- RECORD_RECEIVED (R173 to R175): a DOWN lane receives nothing; on an UP lane the record is checked, and then queued,
refused or counted. -/
def execRecordReceived (lane : Lane) (bytes : List Byte) (s : State) : Host.Outcome State Fault Refusal :=
  running s fun s =>
    if (s.link lane).up then
      match goodRecord bytes with
      | some r => .next (queueRequest lane r s)
      | none => .next (countBadRecord lane s)
    else .next s

/-- MALFORMED_REQUEST (R176): a malformed request at the head of the queue is answered BAD_ARG. -/
def execMalformedRequest (lane : Lane) (s : State) : Host.Outcome State Fault Refusal :=
  running s fun s =>
    match readyHead s lane with
    | none => .next s
    | some r => if (requestKind r).isNone then .next (answerHead lane .badArg [] s) else .next s

end Sys2Proof.Machine
end

