-- ==== Sys2Proof/Machine/Management.lean ====
section
/-! DEFINITION. The management link (chapter 11): each management command by its owner's rules, and the frame that
brings it. -/

namespace Sys2Proof.Machine

/-- What the execution of a command leaves: the part's state, the result code and the result data (R188). -/
structure Reply where
  state : State
  code : AnswerCode
  data : List Byte

/-- A command refused with a code: it changes nothing and has no result data (R188, R190). -/
def refuse (code : AnswerCode) (s : State) : Reply := { state := s, code := code, data := [] }

/-- A command answered OK. -/
def done (data : List Byte) (s : State) : Reply := { state := s, code := .ok, data := data }

/-! ### The pool plan -/

/-- One source's part of a plan is valid for S slots (R1, R2). -/
def sourcePlanValid (S : Nat) (q : SourcePlan) : Bool :=
  !q.enabled || decide (1 ≤ q.cols ∧ q.cols ≤ 32 ∧ 1 ≤ q.rows ∧ q.rows ≤ 20 ∧ 3 ≤ q.quota ∧ q.quota ≤ S)

/-- A plan is valid under the caps in force and those of a pending schedule (R2, R140). -/
def planValid (p : Plan) (m : Scheduler) : Bool :=
  decide (6 ≤ p.slots ∧ p.slots ≤ 32) && srcAll.any (fun x => (p.source.get x).enabled) &&
  srcAll.all (fun x => sourcePlanValid p.slots (p.source.get x)) &&
  capsHonour m.schedule.allowance p &&
  match m.pendingSchedule with
  | some c => capsHonour c.allowance p
  | none => true

/-- Taking a plan (R4, R74, R88, R156, R157): the pool, the detector's tile tables, the cue FIFO, the repeat counts, the bindings
and the last-chapter frames start anew; every setting and counter is kept. -/
def takePlan (p : Plan) (s : State) : State :=
  { s with
    fpc := { s.fpc with
      plan := some p, slots := List.replicate p.slots .free, current := ⟨none, none⟩, nextFrame := ⟨0, 0⟩ }
    rl := s.rl.map (fun r => { r with binding := none, mark := none, holds := [] })
    cd := reseedDetector s.cd
    tcu := restartTimebase s.tcu
    clr := restartChapters s.clr }

/-- SET_PLAN (R2 to R4). -/
def replySetPlan (payload : List Byte) (s : State) : Reply :=
  let p := planOf payload
  if !planValid p s.ms then refuse .badArg s
  else if !poolIdle s then refuse .busy s
  else done [] (takePlan p s)

/-! ### Settings -/

/-- SET_DETECT (R67). -/
def replySetDetect (payload : List Byte) (s : State) : Reply :=
  match srcOf (field payload 0 1) with
  | none => refuse .badArg s
  | some x => done [] { s with cd := { s.cd with settings := s.cd.settings.set x (detectOf payload) } }

/-- A schedule passes R139's checks 2 to 5 against the plan in force and the rendition lanes. -/
def scheduleValid (a : PerReq Nat) (s : State) : Bool :=
  decide (a.sum ≤ Config.allowanceTotal) &&
  (match s.fpc.plan with
    | some p => capsHonour a p
    | none => true) &&
  rlAll.all (fun l => decide (largestBandCost (s.rl.get l) ≤ capOf (a.rl.get l)))

/-- SET_SCHEDULE (R139, R140). -/
def replySetSchedule (payload : List Byte) (s : State) : Reply :=
  match priorityOf (field payload 14 1) with
  | none => refuse .badArg s
  | some prio =>
    let a := allowanceOf payload
    if scheduleValid a s then
      done [] { s with ms := { s.ms with pendingSchedule := some { allowance := a, priority := prio } } }
    else refuse .badArg s

/-- A marker line's settings replaced: a width of 0 is taken as 1, and a line disabled goes LOW (R168, R169). -/
def setLine (enabled : Bool) (width : Nat) (m : MarkerLine) : MarkerLine :=
  { enabled := enabled, width := max 1 width, high := if enabled then m.high else none }

/-- SET_ROUTE (R169). -/
def replySetRoute (payload : List Byte) (s : State) : Reply :=
  match generatorsOf payload with
  | none => refuse .badArg s
  | some gs =>
    done [] { s with clr := { s.clr with
      generators := gs
      mgmtSubs := BitVec.ofNat 6 (field payload 12 1)
      m0 := setLine (flagAt payload 13) (field payload 14 1) s.clr.m0
      m1 := setLine (flagAt payload 15) (field payload 16 1) s.clr.m1 } }

/-- SET_CUE (R155). -/
def replySetCue (payload : List Byte) (s : State) : Reply :=
  match cueSettingsOf payload with
  | none => refuse .badArg s
  | some q => done [] { s with tcu := { s.tcu with cueSettings := q } }

/-- A cadence record with a new interval and stall limit, its timer restarted from now (R150). -/
def setCadence (now : Stamp) (interval limit : Nat) (c : Cadence) : Cadence :=
  { c with
    interval := interval
    stallLimit := max 1 (min limit 255)
    timer := if interval = 0 then none else some (later now (interval * 10)) }

/-- SET_CADENCE (R150). -/
def replySetCadence (payload : List Byte) (s : State) : Reply :=
  match srcOf (field payload 0 1) with
  | none => refuse .badArg s
  | some x => done [] (s.modCadence x (setCadence s.tcu.time (field payload 1 2) (field payload 3 1)))

/-- SET_CHAPTERS (R157). -/
def replySetChapters (payload : List Byte) (s : State) : Reply :=
  match srcOf (field payload 0 1) with
  | none => refuse .badArg s
  | some x =>
    let u : ChapterUnit := { s.clr.chapters.get x with enabled := flagAt payload 1, gap := field payload 2 2 }
    done [] { s with clr := { s.clr with chapters := s.clr.chapters.set x u } }

/-- SET_LANE_LIMITS (R190): the seven limits at once; a POOL_LOW threshold above 32 is taken as 32. -/
def replySetLaneLimits (payload : List Byte) (s : State) : Reply :=
  let il := fun (x : Src) (off : Nat) (s : State) => s.modIl x (fun r => { r with openLimit := field payload off 1 })
  let rl := fun (l : RLane) (off : Nat) (s : State) => s.modRl l (fun r => { r with claimLimit := field payload off 1 })
  let s := rl .r3 5 (rl .r2 4 (rl .r1 3 (rl .r0 2 (il .s1 1 (il .s0 0 s)))))
  done [] { s with fpc := { s.fpc with poolLow := min (field payload 6 1) 32 } }

/-! ### Attributes and the badge stencil -/

/-- The grid bound of a source (R76). -/
def gridBound (s : State) (x : Src) : Nat := if s.enabled x then s.cols x * s.rows x else Config.tileCount

/-- The entries that a run from a first index reaches: shortened to end below the grid bound (R78, R81). -/
def runLength (bound first count : Nat) : Nat := min count (bound - first)

/-- The detector's part of a tile's change of attribute or stencil: its mark and its later-write indicator (R61). -/
def markTile (x : Src) (t : Nat) (d : Detector) : Detector :=
  { d with
    marks := d.marks.set x (d.marks.get x ||| BitVec.twoPow 640 t)
    laterWrites := d.laterWrites.set x (d.laterWrites.get x ||| BitVec.twoPow 640 t) }

/-- A tile record set to RESEED with quiet run 0 (R61). -/
def reseedRec (t : TileRec) : TileRec := { t with state := .reseed, quietRun := 0 }

/-- A tile's record of the live tile table is reseeded (R61). -/
def reseedTile (x : Src) (t : Nat) (d : Detector) : Detector :=
  let old := d.tiles.get x
  { d with tiles := d.tiles.set x (old.set t (reseedRec (old.getD t TileRec.reset))) }

/-- One entry written (R79): a change of value in the grid of an enabled source marks the tile, and reseeds it when the new
value is NONE. -/
def writeAttr (x : Src) (v : Attr) (t : Nat) (s : State) : State :=
  let old := (s.attr.entries.get x).getD t .none
  let s' : State := { s with attr := { s.attr with entries := s.attr.entries.set x ((s.attr.entries.get x).set t v) } }
  if old = v ∨ !s.enabled x then s'
  else
    let d := markTile x t s.cd
    { s' with cd := if v = .none then reseedTile x t d else d }

/-- ATTR_WRITE (R78, R79). -/
def replyAttrWrite (payload : List Byte) (s : State) : Reply :=
  match srcOf (field payload 0 1), attrOf (field payload 5 1) with
  | some x, some v =>
    let first := field payload 1 2
    let n := runLength (gridBound s x) first (field payload 3 2)
    done (beBytes 2 n) ((List.range n).foldl (fun s i => writeAttr x v (first + i) s) s)
  | _, _ => refuse .badArg s

/-- ATTR_READ (R81). -/
def replyAttrRead (payload : List Byte) (s : State) : Reply :=
  match srcOf (field payload 0 1) with
  | none => refuse .badArg s
  | some x =>
    let first := field payload 1 2
    let n := runLength (gridBound s x) first (field payload 3 2)
    done (beBytes 2 n ++ (List.range n).flatMap (fun i =>
      beBytes 1 (attrNum ((s.attr.entries.get x).getD (first + i) .none)))) s

/-- The stencil after a BADGE_WRITE: n lines from the first on, and the two luma values (R80). -/
def writtenStencil (p : List Byte) (n : Nat) (t : Stencil) : Stencil :=
  let first := field p 0 1
  { lines := (List.range n).foldl
      (fun ls i => ls.set (first + i) (stencilLineOf ((p.drop (4 + 8 * i)).take 8))) t.lines
    fg := BitVec.ofNat 8 (field p 2 1)
    bg := BitVec.ofNat 8 (field p 3 1) }

/-- Every BADGE tile in the grid of an enabled source is marked (R80). -/
def markBadges (s : State) (d : Detector) : Detector :=
  srcAll.foldl (fun d x =>
    if s.enabled x then
      (List.range (s.cols x * s.rows x)).foldl
        (fun d t => if (s.attr.entries.get x).getD t .none = .badge then markTile x t d else d) d
    else d) d

/-- BADGE_WRITE (R80, R190): the payload is 4 + 8n bytes for n lines, and lines past line 63 are received and not written. -/
def replyBadgeWrite (payload : List Byte) (s : State) : Reply :=
  let n := min (badgeLineCount payload) (64 - field payload 0 1)
  let t := writtenStencil payload n s.attr.stencil
  let s' : State := { s with attr := { s.attr with stencil := t } }
  done (beBytes 1 n) (if t = s.attr.stencil then s' else { s' with cd := markBadges s s.cd })

/-! ### Read-out -/

/-- The five bytes of a source in READ_STATUS: bit 0 CURRENT present, bit 1 STALLED, and the CURRENT frame's number (R191). -/
def statusSource (s : State) (x : Src) : List Byte :=
  let n := (s.currentFrame x).map SealedFrame.number
  beBytes 1 (bit n.isSome + 2 * bit (s.tcu.cadence.get x).stalled) ++ beBytes 4 (frameVal n)

/-- The eight bytes of a slot in READ_STATUS (R191). -/
def statusSlot (i : Nat) (k : Slot) : List Byte :=
  beBytes 1 i ++ beBytes 1 (slotStateNum (slotState k)) ++ beBytes 1 (srcByte (slotSource k)) ++
  beBytes 4 (frameVal (slotFrame k)) ++ beBytes 1 (slotHolds k + 16 * owedBits (slotOwed k))

/-- READ_STATUS's result data (R191). -/
def statusBytes (s : State) : List Byte :=
  beBytes 1 (poolStateNum s) ++ beBytes 1 s.fpc.slots.length ++ beBytes 1 (linkBits s) ++
  statusSource s .s0 ++ statusSource s .s1 ++ (s.fpc.slots.mapIdx statusSlot).flatten

/-- READ_STATUS (R29, R191). -/
def replyReadStatus (s : State) : Reply :=
  done (statusBytes s) s

/-- The 29 statistic counters in the order READ_COUNTERS reports them (R192). -/
def counterList (s : State) : List Count16 :=
  srcAll.flatMap (fun x =>
    let c := s.mlu.counters.get x
    [c.drops, c.evictions, c.repeats, c.cueMisses]) ++
  rlAll.flatMap (fun l =>
    let r := s.rl.get l
    [r.skipped, r.lost, r.noticeOverruns]) ++
  laneAll.map (fun lane => (s.link lane).errors) ++
  [s.tcu.cueOverruns, s.clr.overflows, s.clr.markerOverruns]

/-- Every statistic counter at 0 (R192). -/
def clearCounters (s : State) : State :=
  { s with
    il := s.il.map (fun r => { r with link := { r.link with errors := 0 } })
    rl := s.rl.map (fun r => { r with
      link := { r.link with errors := 0 }, skipped := 0, lost := 0, noticeOverruns := 0 })
    tcu := { s.tcu with cueOverruns := 0 }
    clr := { s.clr with overflows := 0, markerOverruns := 0 }
    mlu := { s.mlu with counters := ⟨SourceCounters.reset, SourceCounters.reset⟩ } }

/-- READ_COUNTERS (R192). -/
def replyReadCounters (payload : List Byte) (s : State) : Reply :=
  done ((counterList s).flatMap (fun c => beBytes 2 c.toNat)) (if flagAt payload 0 then clearCounters s else s)

/-- POP_CHAPTERS (R162, R193): up to 16 records from the head of the log, removed as they are returned. -/
def replyPopChapters (payload : List Byte) (s : State) : Reply :=
  let n := min (min (field payload 0 1) Config.popLimit) s.clr.log.length
  done (beBytes 1 n ++ beBytes 1 (s.clr.log.length - n) ++ (s.clr.log.take n).flatMap chapterBytes)
    { s with clr := { s.clr with log := s.clr.log.drop n } }

/-- The entries a READ_MARKERS returns: the first carries OVERRUN when the indicator is set, the others carry it clear (R167). -/
def returnedMarkers (overrun : Bool) : List MarkerEntry → List MarkerEntry
  | [] => []
  | e :: es => { e with overrun := overrun } :: es.map (fun e => { e with overrun := false })

/-- READ_MARKERS (R167, R193): up to 16 entries from the head of the queue, removed as they are returned; the indicator is
cleared by a read that returns an entry. -/
def replyReadMarkers (payload : List Byte) (s : State) : Reply :=
  let n := min (min (field payload 0 1) Config.popLimit) s.clr.markers.length
  let es := returnedMarkers s.clr.markerOverrun (s.clr.markers.take n)
  done (beBytes 1 n ++ beBytes 1 (s.clr.markers.length - n) ++ es.flatMap markerBytes)
    { s with clr := { s.clr with
      markers := s.clr.markers.drop n
      markerOverrun := if n = 0 then s.clr.markerOverrun else false } }

/-! ### The reset cause record and the reset commands -/

/-- READ_RESET_CAUSE (R194). -/
def replyReadResetCause (s : State) : Reply :=
  done (beBytes 2 s.mlu.cause.toNat) s

/-- CLEAR_RESET_CAUSE (R194): each flag whose bit is 1 is cleared, and the record as it then stands is returned. -/
def replyClearResetCause (payload : List Byte) (s : State) : Reply :=
  let c := s.mlu.cause &&& ~~~(BitVec.ofNat 9 (field payload 0 2))
  done (beBytes 2 c.toNat) { s with mlu := { s.mlu with cause := c } }

/-- SOFT_RESET (R196). -/
def replySoftReset (s : State) : Reply :=
  done [] (softResetPart s)

/-- LANE_RESET (R197): a lane number above 5 is refused. -/
def replyLaneReset (payload : List Byte) (s : State) : Reply :=
  match laneOf (field payload 0 1) with
  | none => refuse .badArg s
  | some lane => done [] (resetLane lane s)

/-! ### The command table -/

/-- A payload length other than the table's is refused BAD_ARG (R188). -/
def ofLength (len : Nat) (payload : List Byte) (r : Reply) (s : State) : Reply :=
  if payload.length = len then r else refuse .badArg s

/-- The execution of a complete command by its code (R188, R189): a code outside the table is refused BAD_ARG, then a payload of
another length than the table's, and otherwise the command is executed by its owner's rules. -/
def commandReply (code : Byte) (payload : List Byte) (s : State) : Reply :=
  match code.toNat with
  | 1 => ofLength 9 payload (replySetPlan payload s) s
  | 2 => ofLength 7 payload (replySetDetect payload s) s
  | 3 => ofLength 15 payload (replySetSchedule payload s) s
  | 4 => ofLength 17 payload (replySetRoute payload s) s
  | 5 => ofLength 5 payload (replySetCue payload s) s
  | 6 => ofLength 4 payload (replySetCadence payload s) s
  | 7 => ofLength 4 payload (replySetChapters payload s) s
  | 8 => ofLength 7 payload (replySetLaneLimits payload s) s
  | 16 => ofLength 6 payload (replyAttrWrite payload s) s
  | 17 => ofLength 5 payload (replyAttrRead payload s) s
  | 18 => ofLength (4 + 8 * badgeLineCount payload) payload (replyBadgeWrite payload s) s
  | 32 => ofLength 0 payload (replyReadStatus s) s
  | 33 => ofLength 1 payload (replyReadCounters payload s) s
  | 34 => ofLength 1 payload (replyPopChapters payload s) s
  | 35 => ofLength 1 payload (replyReadMarkers payload s) s
  | 36 => ofLength 0 payload (replyReadResetCause s) s
  | 37 => ofLength 2 payload (replyClearResetCause payload s) s
  | 48 => ofLength 0 payload (replySoftReset s) s
  | 49 => ofLength 1 payload (replyLaneReset payload s) s
  | _ => refuse .badArg s

/-! ### The frame -/

/-- The frame of a command that has been executed: the buffer holds code, length and payload, the frame state is EXECUTED, and the
result waits to be clocked out (R187, R188). -/
def closeFrame (staged : List Byte) (r : Reply) : State :=
  { r.state with mlu := { r.state.mlu with
    staging := staged
    frame := .executed
    result := some { code := r.code, data := r.data }
    sent := [] } }

/-- The buffer holds the bytes of a complete command, code, length and payload, and it is executed in one step (R187, R188). -/
def executeFrame (staged : List Byte) (s : State) : State :=
  match staged with
  | code :: _ :: payload => closeFrame staged (commandReply code payload { s with mlu := { s.mlu with staging := staged } })
  | _ => s

/-- Byte j clocked out after the command is complete: two turnaround bytes of 0, the result code, the result data, and 0 beyond
its end (R186, R188). -/
def resultByte (m : Mlu) (j : Nat) : Byte :=
  match m.result with
  | none => 0
  | some r => if j < 2 then 0 else (BitVec.ofNat 8 (answerNum r.code) :: r.data).getD (j - 2) 0

/-- CSN falls (R187): the buffer is emptied and the frame is RECEIVING. With CSN low already there is no edge. -/
def frameFall (m : Mlu) : Mlu :=
  if m.csnLow then m
  else { m with csnLow := true, staging := [], frame := .receiving, result := none, sent := [] }

/-- CSN rises (R187): the frame is closed and IDLE; bytes staged of a command that is not complete are discarded, and a result not
clocked out is lost. With CSN high already there is no edge. -/
def frameRise (m : Mlu) : Mlu :=
  if m.csnLow then
    { m with
      csnLow := false
      staging := match m.frame with
        | .receiving => []
        | _ => m.staging
      frame := .idle
      result := none }
  else m

/-- The board controller opens a frame of its own: CSN rises where it is low, and falls (R186, R187). -/
def newFrame (m : Mlu) : Mlu := frameFall (frameRise m)

/-- One byte is clocked (R187, R188). A frame that is RECEIVING appends it, and the byte that completes a command has it executed.
After the execution the byte is ignored and the frame's next byte is sent; the state is RESULT once both turnaround bytes have
been clocked. With no frame taken nothing happens: so it is while CSN is high, and from RSTN's release with CSN low until CSN
has risen and fallen. -/
def clockByte (b : Byte) (s : State) : State :=
  let m := s.mlu
  match m.frame with
  | .idle => s
  | .receiving =>
    let staged := m.staging ++ [b]
    if frameComplete staged then executeFrame staged s else { s with mlu := { m with staging := staged } }
  | .executed =>
    { s with mlu := { m with
      sent := m.sent ++ [resultByte m m.sent.length]
      frame := if m.sent.length + 1 < 2 then .executed else .result } }
  | .result => { s with mlu := { m with sent := m.sent ++ [resultByte m m.sent.length] } }

/-- A row of a management command is its whole frame up to the execution: CSN rises where it is low, and falls, the bytes of the
command are clocked in, and it is executed (R186 to R188; DESIGN CHOICE, notes/assumptions/8.md). No frame is taken while RSTN is low. -/
def takeCommand (code : Byte) (payload : List Byte) (s : State) : Host.Outcome State Fault Refusal :=
  running s fun s =>
    .next (executeFrame (code :: BitVec.ofNat 8 payload.length :: payload) { s with mlu := newFrame s.mlu })

/-- The frame's part of MANAGEMENT_FRAME_CUT_OFF: its edges and bytes, and for the whole row a frame of its own, cut off by the rise of
CSN after the staged bytes. Bytes that are a complete command are no such frame (R187). -/
def moveFrame (move : FrameMove) (s : State) : State :=
  match move with
  | .whole staged =>
    if frameComplete staged then s else { s with mlu := frameRise { newFrame s.mlu with staging := staged } }
  | .fall => { s with mlu := frameFall s.mlu }
  | .byte b => clockByte b s
  | .rise => { s with mlu := frameRise s.mlu }

/-- What an edge of CSN does while RSTN is held low: no frame is taken, and the input's level is followed, so that a frame whose CSN
fell before the release is not taken after it (R187). -/
def followCsn (move : FrameMove) (m : Mlu) : Mlu :=
  match move with
  | .fall => { m with csnLow := true }
  | .rise => { m with csnLow := false }
  | .whole _ => m
  | .byte _ => m

/-! ### The management commands -/

/-- SET_PLAN (R2 to R4). -/
def execSetPlan (payload : List Byte) (s : State) : Host.Outcome State Fault Refusal := takeCommand 1 payload s

/-- SET_DETECT (R67). -/
def execSetDetect (payload : List Byte) (s : State) : Host.Outcome State Fault Refusal := takeCommand 2 payload s

/-- SET_SCHEDULE (R139, R140). -/
def execSetSchedule (payload : List Byte) (s : State) : Host.Outcome State Fault Refusal := takeCommand 3 payload s

/-- SET_ROUTE (R169). -/
def execSetRoute (payload : List Byte) (s : State) : Host.Outcome State Fault Refusal := takeCommand 4 payload s

/-- SET_CUE (R155). -/
def execSetCue (payload : List Byte) (s : State) : Host.Outcome State Fault Refusal := takeCommand 5 payload s

/-- SET_CADENCE (R150). -/
def execSetCadence (payload : List Byte) (s : State) : Host.Outcome State Fault Refusal := takeCommand 6 payload s

/-- SET_CHAPTERS (R157). -/
def execSetChapters (payload : List Byte) (s : State) : Host.Outcome State Fault Refusal := takeCommand 7 payload s

/-- SET_LANE_LIMITS (R190). -/
def execSetLaneLimits (payload : List Byte) (s : State) : Host.Outcome State Fault Refusal := takeCommand 8 payload s

/-- ATTR_WRITE (R78, R79). -/
def execAttrWrite (payload : List Byte) (s : State) : Host.Outcome State Fault Refusal := takeCommand 16 payload s

/-- ATTR_READ (R81). -/
def execAttrRead (payload : List Byte) (s : State) : Host.Outcome State Fault Refusal := takeCommand 17 payload s

/-- BADGE_WRITE (R80, R190). -/
def execBadgeWrite (payload : List Byte) (s : State) : Host.Outcome State Fault Refusal := takeCommand 18 payload s

/-- READ_STATUS (R29, R191). -/
def execReadStatus (payload : List Byte) (s : State) : Host.Outcome State Fault Refusal := takeCommand 32 payload s

/-- READ_COUNTERS (R192). -/
def execReadCounters (payload : List Byte) (s : State) : Host.Outcome State Fault Refusal := takeCommand 33 payload s

/-- POP_CHAPTERS (R162, R193). -/
def execPopChapters (payload : List Byte) (s : State) : Host.Outcome State Fault Refusal := takeCommand 34 payload s

/-- READ_MARKERS (R167, R193). -/
def execReadMarkers (payload : List Byte) (s : State) : Host.Outcome State Fault Refusal := takeCommand 35 payload s

/-- READ_RESET_CAUSE (R194). -/
def execReadResetCause (payload : List Byte) (s : State) : Host.Outcome State Fault Refusal := takeCommand 36 payload s

/-- CLEAR_RESET_CAUSE (R194). -/
def execClearResetCause (payload : List Byte) (s : State) : Host.Outcome State Fault Refusal := takeCommand 37 payload s

/-- SOFT_RESET (R196). -/
def execSoftReset (payload : List Byte) (s : State) : Host.Outcome State Fault Refusal := takeCommand 48 payload s

/-- LANE_RESET (R197). -/
def execLaneReset (payload : List Byte) (s : State) : Host.Outcome State Fault Refusal := takeCommand 49 payload s

/-- UNKNOWN_COMMAND (R188): a code that is not in the command table is answered BAD_ARG. A code of the table is no unknown
command. -/
def execUnknownCommand (code : Byte) (payload : List Byte) (s : State) : Host.Outcome State Fault Refusal :=
  if commandCodes.contains code.toNat then .next s else takeCommand code payload s

/-- MANAGEMENT_FRAME_CUT_OFF (R187): CSN rises while the frame is RECEIVING; the staged bytes are discarded and nothing is executed.
Its operand also carries the single edges and bytes of a frame (notes/assumptions/8.md). -/
def execManagementFrameCutOff (move : FrameMove) (s : State) : Host.Outcome State Fault Refusal :=
  .next (if s.rstnLow then { s with mlu := followCsn move s.mlu } else moveFrame move s)

end Sys2Proof.Machine
end

