-- ==== Sys2Proof/Machine/Dispatch.lean ====
section
/-! DEFINITION. One arm per command: its meaning. -/

namespace Sys2Proof.Machine

/-- The command's effect on everything but the queue of waiting commands. -/
def exec (i : Instr) (s : State) : Host.Outcome State Fault Refusal :=
  match i with
  | .powerOnReset => Sys2Proof.Machine.execPowerOnReset s
  | .boardReset => Sys2Proof.Machine.execBoardReset s
  | .setPlan payload => Sys2Proof.Machine.execSetPlan payload s
  | .setDetect payload => Sys2Proof.Machine.execSetDetect payload s
  | .setSchedule payload => Sys2Proof.Machine.execSetSchedule payload s
  | .setRoute payload => Sys2Proof.Machine.execSetRoute payload s
  | .setCue payload => Sys2Proof.Machine.execSetCue payload s
  | .setCadence payload => Sys2Proof.Machine.execSetCadence payload s
  | .setChapters payload => Sys2Proof.Machine.execSetChapters payload s
  | .setLaneLimits payload => Sys2Proof.Machine.execSetLaneLimits payload s
  | .attrWrite payload => Sys2Proof.Machine.execAttrWrite payload s
  | .attrRead payload => Sys2Proof.Machine.execAttrRead payload s
  | .badgeWrite payload => Sys2Proof.Machine.execBadgeWrite payload s
  | .readStatus payload => Sys2Proof.Machine.execReadStatus payload s
  | .readCounters payload => Sys2Proof.Machine.execReadCounters payload s
  | .popChapters payload => Sys2Proof.Machine.execPopChapters payload s
  | .readMarkers payload => Sys2Proof.Machine.execReadMarkers payload s
  | .readResetCause payload => Sys2Proof.Machine.execReadResetCause payload s
  | .clearResetCause payload => Sys2Proof.Machine.execClearResetCause payload s
  | .softReset payload => Sys2Proof.Machine.execSoftReset payload s
  | .laneReset payload => Sys2Proof.Machine.execLaneReset payload s
  | .unknownCommand code payload => Sys2Proof.Machine.execUnknownCommand code payload s
  | .managementFrameCutOff move => Sys2Proof.Machine.execManagementFrameCutOff move s
  | .linkTrainingComplete lane => Sys2Proof.Machine.execLinkTrainingComplete lane s
  | .linkLoss lane => Sys2Proof.Machine.execLinkLoss lane s
  | .recordReceived lane bytes => Sys2Proof.Machine.execRecordReceived lane bytes s
  | .malformedRequest lane => Sys2Proof.Machine.execMalformedRequest lane s
  | .openFrame lane => Sys2Proof.Machine.execOpenFrame lane s
  | .putRows lane => Sys2Proof.Machine.execPutRows lane s
  | .sealFrame lane => Sys2Proof.Machine.execSealFrame lane s
  | .abandonFrame lane => Sys2Proof.Machine.execAbandonFrame lane s
  | .bind lane => Sys2Proof.Machine.execBind lane s
  | .unbind lane => Sys2Proof.Machine.execUnbind lane s
  | .claimNext lane => Sys2Proof.Machine.execClaimNext lane s
  | .claimLatest lane => Sys2Proof.Machine.execClaimLatest lane s
  | .claimNumber lane => Sys2Proof.Machine.execClaimNumber lane s
  | .release lane => Sys2Proof.Machine.execRelease lane s
  | .fetch lane => Sys2Proof.Machine.execFetch lane s
  | .fetchMaskFrame lane => Sys2Proof.Machine.execFetchMaskFrame lane s
  | .fetchMaskSince lane => Sys2Proof.Machine.execFetchMaskSince lane s
  | .subscribe lane => Sys2Proof.Machine.execSubscribe lane s
  | .openWaitDeadline x => Sys2Proof.Machine.execOpenWaitDeadline x s
  | .claimWaitDeadline l => Sys2Proof.Machine.execClaimWaitDeadline l s
  | .ingestBurstComplete => Sys2Proof.Machine.execIngestBurstComplete s
  | .detectorRowBurstComplete => Sys2Proof.Machine.execDetectorRowBurstComplete s
  | .bandBurstComplete => Sys2Proof.Machine.execBandBurstComplete s
  | .transmitRecord lane part => Sys2Proof.Machine.execTransmitRecord lane part s
  | .periodEvent => Sys2Proof.Machine.execPeriodEvent s
  | .refreshComplete => Sys2Proof.Machine.execRefreshComplete s
  | .cadenceExpiry x => Sys2Proof.Machine.execCadenceExpiry x s
  | .cueEdge edge => Sys2Proof.Machine.execCueEdge edge s
  | .spacingHoldEnd => Sys2Proof.Machine.execSpacingHoldEnd s
  | .cueAgeExpiry => Sys2Proof.Machine.execCueAgeExpiry s
  | .markerPulseEnd pin => Sys2Proof.Machine.execMarkerPulseEnd pin s
  | .rstnAsserted => Sys2Proof.Machine.execRstnAsserted s

end Sys2Proof.Machine
end

