-- ==== Sys2Proof/Machine/Step.lean ====
section
/-! DEFINITION. One step of the part: the command at the front of the queue, or, on an empty queue, the passing of time. -/

namespace Sys2Proof.Machine

/-- What the part does with no command waiting. While RSTN is held low nothing happens; otherwise an event that is due at the
time counter's value is taken, and when none is, one microsecond passes (notes/assumptions/5.md). -/
def idleStep (s : State) : Host.Outcome State Fault Refusal :=
  running s fun s =>
    match dueEvent s with
    | some c => exec c s
    | none => .next (tick s)

/-- One step: the command at the front of the queue is executed with the queue's rest. -/
def step (s : State) : Host.Outcome State Fault Refusal :=
  match s.pending with
  | c :: rest => exec c { s with pending := rest }
  | [] => idleStep s

/-- The state with the command a table word spells put at the front of its queue; no word spells one. -/
def State.withFetchWord (s : State) (nbits w : Nat) : State :=
  match decodeTableWord nbits w with
  | some c => { s with pending := c :: s.pending }
  | none => s

end Sys2Proof.Machine
end

