-- ==== Sys2Proof/Safety.lean ====
section
/-! DEFINITION. What counts as a safe state of the part: the laws of the part that every step keeps from any state that has
them, each said over the state alone. -/

namespace Sys2Proof.Machine

/-- R132: every requester's credit balance lies in 0 to 2 × its allowance. -/
def CreditLaw (s : State) : Prop :=
  ∀ r : Requester, s.ms.balance.get r ≤ capOf (s.ms.schedule.allowance.get r)

/-- The allowances a, in force or pending, pass the checks that keep every burst that can be placed within its cap (R2, R93, R139,
R140): their sum is within bounds, the plan's row costs and each rendition lane's largest band cost are within the caps. -/
def Honoured (a : PerReq Nat) (s : State) : Prop :=
  a.sum ≤ Config.allowanceTotal ∧ (∀ p, s.fpc.plan = some p → capsHonour a p = true) ∧
  ∀ l : RLane, largestBandCost (s.rl.get l) ≤ capOf (a.rl.get l)

/-- R140: the checks that guard a schedule hold for the schedule in force and for the pending one. -/
def CapLaw (s : State) : Prop :=
  Honoured s.ms.schedule.allowance s ∧ ∀ c, s.ms.pendingSchedule = some c → Honoured c.allowance s

/-- R19: the number of non-FREE slots of a source never exceeds its quota in the plan in force. -/
def QuotaLaw (s : State) : Prop :=
  ∀ x : Src, s.occupancy x ≤ s.quota x

/-- R160: the chapter log, the notice queues, the management marker queue, the cue FIFO and the request queues keep within
their depths. -/
def DepthLaw (s : State) : Prop :=
  s.clr.log.length ≤ Config.logDepth ∧ s.clr.markers.length ≤ Config.markerDepth ∧
  s.tcu.cues.length ≤ Config.cueDepth ∧
  (∀ l : RLane, (s.rl.get l).notices.length ≤ Config.noticeDepth) ∧
  (∀ lane : Lane, (s.link lane).queue.length ≤ Config.queueDepth)

/-- R161: the records in the chapter log carry consecutive sequence numbers from head to tail, and the next sequence number
follows the newest. -/
def SequenceLaw (s : State) : Prop :=
  s.clr.log.map ChapterRec.seq =
    (List.range s.clr.log.length).map (fun i => s.clr.nextSeq - BitVec.ofNat 16 (s.clr.log.length - i))

/-- The DRAM's cells are in canonical form. -/
def MemoryLaw (s : State) : Prop := memWf s.mem

/-- The tables of fixed size have their size: 640 tile records (R55) and 640 attribute entries (R75) of each source, 64 stencil lines
(R77), six generators (R163). -/
def TableLaw (s : State) : Prop :=
  (∀ x : Src, (s.cd.tiles.get x).length = 640 ∧ (s.attr.entries.get x).length = 640) ∧
  s.attr.stencil.lines.length = 64 ∧ s.clr.generators.length = 6

/-- R6, R22, R47, R48, while RSTN is high: a slot is FILLING for a source exactly when it is its lane's open frame, CURRENT exactly when
the source's CURRENT pointer names it, ANALYSING exactly when the analysis under way is of it, and QUEUED exactly when it stands
in the analysis queue, once; and a lane has a pending open exactly when its source has an entry in the slot wait list, one at most,
and then it has no open frame. -/
def LifeLaw (s : State) : Prop :=
  s.rstnLow = false →
    (∀ x k, (∃ p n, s.fpc.slots[k]? = some (.filling x p n)) ↔ (s.il.get x).openFrame = some k) ∧
    (∀ x k, (∃ f v h o, s.fpc.slots[k]? = some (.analysed true f v h o) ∧ f.source = x) ↔ s.fpc.current.get x = some k) ∧
    (∀ k, (∃ f, s.fpc.slots[k]? = some (.analysing f)) ↔ ∃ c, s.cd.ctx = some c ∧ c.slot = k) ∧
    (∀ k, (∃ f, s.fpc.slots[k]? = some (.queued f)) ↔ k ∈ s.cd.queue) ∧
    s.cd.queue.Nodup ∧ (s.cd.ctx = none → s.cd.queue = []) ∧
    (∀ x, (s.il.get x).pendingOpen.isSome = true ↔ ∃ e, e ∈ s.fpc.waitList ∧ e.source = x) ∧
    (s.fpc.waitList.map WaitEntry.source).Nodup ∧
    (∀ x, (s.il.get x).pendingOpen.isSome = true → (s.il.get x).openFrame = none)

/-- R63, R65, R66, R159: an analysed frame of class HOLD has an empty change mask, a frame that carries FIRST, CUE or CHAPTER is SCENE, and
no frame counts more changed tiles than active ones; nor does the analysis under way. -/
def FrameLaw (s : State) : Prop :=
  (∀ (k : Nat) (cur : Bool) (f : SealedFrame) (v : Verdict) (h : Nat) (o : PerRL Bool),
    s.fpc.slots[k]? = some (.analysed cur f v h o) →
    (v.cls = .hold → v.mask = 0) ∧
    ((v.flags.first = true ∨ v.flags.cue = true ∨ v.flags.chapter = true) → v.cls = .scene) ∧
    v.changed ≤ v.active) ∧
  (∀ c, s.cd.ctx = some c → c.changed ≤ c.active)

/-- R1, R2, R26: an UNPLANNED pool has no slot; the plan in force has as many slots as it says, 6 to 32 of them, an enabled source's
geometry and quota in range, and quota 0 for a disabled one. -/
def PlanLaw (s : State) : Prop :=
  (s.fpc.plan = none → s.fpc.slots = []) ∧
  ∀ p, s.fpc.plan = some p →
    s.fpc.slots.length = p.slots ∧ 6 ≤ p.slots ∧ p.slots ≤ 32 ∧
    ∀ x : Src,
      let q := p.source.get x
      (q.enabled = true → 1 ≤ q.cols ∧ q.cols ≤ 32 ∧ 1 ≤ q.rows ∧ q.rows ≤ 20 ∧ 3 ≤ q.quota ∧ q.quota ≤ p.slots) ∧
      (q.enabled = false → q.quota = 0)

/-- R47, R50, R51, R63: the analysis under way is of the frame in its ANALYSING slot, in the geometry of that frame's source, awaits a
row of it, and has counted at most the tiles of the rows before; and no analysed frame counts more active tiles than its source's grid
has, nor more than 640. -/
def AnalysisLaw (s : State) : Prop :=
  (∀ c, s.cd.ctx = some c →
    (∃ f, s.fpc.slots[c.slot]? = some (.analysing f) ∧ f.source = c.source ∧ f.number = c.number ∧ f.arrival = c.arrival) ∧
    c.cols = s.cols c.source ∧ c.rows = s.rows c.source ∧ c.nextRow < c.rows ∧ c.active ≤ c.nextRow * c.cols) ∧
  ∀ (k : Nat) (cur : Bool) (f : SealedFrame) (v : Verdict) (h : Nat) (o : PerRL Bool),
    s.fpc.slots[k]? = some (.analysed cur f v h o) →
    v.active ≤ s.cols f.source * s.rows f.source ∧ v.active ≤ 640

/-- How many seals ago a source gave a number: 1 for its newest frame (R6). -/
def age (s : State) (x : Src) (n : FrameNo) : Nat := (s.fpc.nextFrame.get x - n).toNat

/-- R14, R95, R97: a slot's hold count is the number of rendition lanes whose hold list names it; a hold list has at most two entries,
of distinct slots, each naming the frame that its slot holds, of the lane's bound source and no newer than the lane's claim mark; and
a lane whose claim waits is bound and holds fewer than two slots. -/
def HoldLaw (s : State) : Prop :=
  (∀ k : Nat, slotHolds (s.slot k) = rlAll.countP (fun l => (s.rl.get l).holds.any (fun e => e.slot = k))) ∧
  ∀ l : RLane,
    (s.rl.get l).holds.length ≤ 2 ∧ ((s.rl.get l).holds.map Hold.slot).Nodup ∧
    (∀ e, e ∈ (s.rl.get l).holds →
      ∃ b m cur f v h o, (s.rl.get l).binding = some b ∧ (s.rl.get l).mark = some m ∧
        s.fpc.slots[e.slot]? = some (.analysed cur f v h o) ∧ f.source = b.source ∧ f.number = e.frame ∧
        age s b.source m ≤ age s b.source e.frame) ∧
    ((s.rl.get l).pendingClaim.isSome = true → (s.rl.get l).binding.isSome = true ∧ (s.rl.get l).holds.length < 2)

/-- R5, R13, R20: a STALE slot that nothing holds is owed to some lane, and a lane that is owed a frame is bound to its source. -/
def OwedLaw (s : State) : Prop :=
  (∀ (k : Nat) (f : SealedFrame) (v : Verdict) (o : PerRL Bool),
    s.fpc.slots[k]? = some (.analysed false f v 0 o) → ∃ l : RLane, o.get l = true) ∧
  ∀ (k : Nat) (cur : Bool) (f : SealedFrame) (v : Verdict) (h : Nat) (o : PerRL Bool) (l : RLane),
    s.fpc.slots[k]? = some (.analysed cur f v h o) → o.get l = true → s.boundTo l f.source = true

/-- Slot k holds frame n of source x. -/
def Holds (s : State) (k : Nat) (x : Src) (n : FrameNo) : Prop :=
  ∃ c, s.fpc.slots[k]? = some c ∧ slotSource c = some x ∧ slotFrame c = some n

/-- R6, R9, R11: within one source, no two slots hold one number and none holds the next one; a CURRENT frame is newer than every STALE
one, and stands wherever a STALE one does; a QUEUED or ANALYSING frame is newer than every CURRENT one; and the detector's queue, with
the frame under analysis at its head, has a source's frames in the order of their seals. -/
def NumberLaw (s : State) : Prop :=
  (∀ x j k n, Holds s j x n → Holds s k x n → j = k) ∧
  (∀ x k n, Holds s k x n → 1 ≤ age s x n) ∧
  (∀ x j k n m, Holds s j x n → Holds s k x m → slotState (s.slot j) = .stale → slotState (s.slot k) = .current →
    age s x m < age s x n) ∧
  (∀ x j n, Holds s j x n → slotState (s.slot j) = .stale → ∃ k m, Holds s k x m ∧ slotState (s.slot k) = .current) ∧
  (∀ x j k n m, Holds s j x n → Holds s k x m → slotState (s.slot j) = .current →
    (slotState (s.slot k) = .queued ∨ slotState (s.slot k) = .analysing) → age s x m < age s x n) ∧
  ∀ (x : Src) (before after : List Nat) (j k : Nat) (n m : FrameNo),
    (match s.cd.ctx with
      | some c => [c.slot]
      | none => []) ++ s.cd.queue = before ++ j :: after →
    k ∈ after → Holds s j x n → Holds s k x m → age s x m < age s x n

/-- The frame numbers in the pool are recent enough for R6's wrap-safe order to tell them apart, and one more seal keeps them so. -/
def Recent (s : State) : Prop := ∀ x k n, Holds s k x n → age s x n < 2147483647

/-- The DRAM carries a burst of this job for an operation that is still under way. -/
def Carries (s : State) (j : Job) : Prop := ∃ b, s.ms.dram = .burst b ∧ b.live = true ∧ b.job = j

/-- R35, R36, R130: an ingest lane with a row in its buffer has an open frame that awaits exactly that row, and the row's burst waits or
is carried; a lane without one has no burst. -/
def RowLaw (s : State) (x : Src) : Prop :=
  match (s.il.get x).rowBuffer with
  | none => s.ms.waiting.get (.il x) = none ∧ ∀ a data, ¬ Carries s (.ingest x a data)
  | some b =>
    ∃ k p, (s.il.get x).openFrame = some k ∧ s.fpc.slots[k]? = some (.filling x p b.row) ∧ b.row < s.rows x ∧
      b.data.length = s.cols x * 6144 ∧
      ((s.ms.waiting.get (.il x) = some (ingestRowCost (s.cols x)) ∧ ∀ a data, ¬ Carries s (.ingest x a data)) ∨
        (s.ms.waiting.get (.il x) = none ∧ Carries s (.ingest x (s.rowPlace k (s.cols x) b.row) b.data)))

/-- R51, R130: while an analysis is under way the burst of its next row waits or is carried, and otherwise the detector has none. -/
def DetLaw (s : State) : Prop :=
  match s.cd.ctx with
  | none => s.ms.waiting.get .det = none ∧ ¬ Carries s .detector
  | some c =>
    (s.ms.waiting.get .det = some (detectorRowCost c.cols) ∧ ¬ Carries s .detector) ∨
      (s.ms.waiting.get .det = none ∧ Carries s .detector)

/-- The lane is sending the record of the band in its buffer. -/
def sendsBand (r : RenditionLane) : Bool :=
  match r.link.sending with
  | some { record := .band _, live := true } => true
  | _ => false

/-- R120 to R123: a lane's FETCH names one of the lane's holds and a band of its run, and its phase says where that band stands: its burst
waits, or is carried with the band-in-progress record of that very band, or it is in the band buffer and its record waits, once, or is
being sent; a lane with no FETCH has no burst, no band and no band record. -/
def FetchLaw (s : State) (l : RLane) : Prop :=
  let r := s.rl.get l
  let wait := s.ms.waiting.get (.rl l)
  let noRecord := Outgoing.bandData ∉ r.link.outgoing ∧ sendsBand r = false
  match r.fetch with
  | none => wait = none ∧ ¬ Carries s (.band l) ∧ r.bandBuffer = none ∧ noRecord
  | some c =>
    c.hold ∈ r.holds ∧ c.nextBand ≤ c.lastBand ∧ c.lastBand < bandCount c.hold.window ∧
    match c.phase with
    | .request => wait = some (bandCost c.hold.window) ∧ ¬ Carries s (.band l) ∧ r.bandBuffer = none ∧ noRecord
    | .read =>
      wait = none ∧ Carries s (.band l) ∧ r.bandBuffer = none ∧ noRecord ∧
      ∃ p, s.band = some p ∧ p.lane = l ∧ p.tag = c.tag ∧ p.slot = c.hold.slot ∧ p.index = c.nextBand ∧ p.window = c.hold.window
    | .send =>
      wait = none ∧ ¬ Carries s (.band l) ∧
      ∃ b, r.bandBuffer = some b ∧ b.tag = c.tag ∧ b.slot = c.hold.slot ∧ b.index = c.nextBand ∧
        ((r.link.outgoing.count .bandData = 1 ∧ sendsBand r = false) ∨
          (Outgoing.bandData ∉ r.link.outgoing ∧ r.link.sending = some { record := .band b, live := true }))

/-- R120, R129, R130, R133, R137, and the place of every write: an idle DRAM has no refresh due and leaves no request waiting that its
balance covers; what a burst or refresh still has to carry is at most its size; a band-in-progress record is that of the burst the DRAM
carries, with sums of 0; and an ingest burst lies within the DRAM, and, once nobody waits for it, within slots that are FREE or have
no row written yet. -/
def DramLaw (s : State) : Prop :=
  s.ms.room ≤ 64 ∧
  (s.ms.dram = .idle → s.ms.refreshDue = false ∧ ∀ r : Requester, eligible s.ms r = false) ∧
  (∀ b, s.ms.dram = .burst b → b.remaining ≤ b.cost) ∧ (∀ n, s.ms.dram = .refresh n → n ≤ 500) ∧
  (∀ p, s.band = some p →
    (∃ b, s.ms.dram = .burst b ∧ b.job = .band p.lane) ∧ p.sums = List.replicate (12 * outWidth p.window) 0) ∧
  ∀ b x a data, s.ms.dram = .burst b → b.job = .ingest x a data →
    a + data.length ≤ 134217728 ∧
    (b.live = false → ∀ (p : Plan) (k i : Nat) (c : Slot), s.fpc.plan = some p → s.fpc.slots[k]? = some c →
      k * slotSize p ≤ i → i < (k + 1) * slotSize p → a ≤ i → i < a + data.length →
      c = .free ∨ ∃ y q, c = .filling y q 0)

/-- Every burst, waiting or carried, belongs to what its requester is doing. -/
def BurstLaw (s : State) : Prop :=
  DramLaw s ∧ DetLaw s ∧ (∀ x : Src, RowLaw s x) ∧ ∀ l : RLane, FetchLaw s l

/-- R31, R43, R89, R111, R171, R178, R187: a lane that is DOWN has no request, nothing to send and no operation, and a DOWN rendition lane no
binding, hold, notice or subscription either; what leaves a lane before its notices is among what waits; an operation in execution
has its request at the head of the queue; and the management frame is IDLE while CSN is high. -/
def LinkLaw (s : State) : Prop :=
  (∀ lane : Lane,
    ((s.link lane).up = false →
      (s.link lane).queue = [] ∧ (s.link lane).outgoing = [] ∧ (s.link lane).sending = none) ∧
    (s.link lane).ahead ≤ (s.link lane).outgoing.length ∧
    (laneBusy s lane = true → (s.link lane).queue ≠ [])) ∧
  (∀ x : Src, (s.il.get x).link.up = false → (s.il.get x).openFrame = none) ∧
  (∀ l : RLane, (s.rl.get l).link.up = false →
    (s.rl.get l).binding = none ∧ (s.rl.get l).holds = [] ∧ (s.rl.get l).notices = [] ∧ (s.rl.get l).subs = 0) ∧
  (s.mlu.csnLow = false → s.mlu.frame = .idle)

/-- A safe state has every law. -/
def SafeState (s : State) : Prop :=
  CreditLaw s ∧ CapLaw s ∧ QuotaLaw s ∧ DepthLaw s ∧ SequenceLaw s ∧ MemoryLaw s ∧ TableLaw s ∧ LifeLaw s ∧ FrameLaw s ∧
  PlanLaw s ∧ AnalysisLaw s ∧ HoldLaw s ∧ OwedLaw s ∧ NumberLaw s ∧ BurstLaw s ∧ LinkLaw s

/-- A run of k steps is safe when the part never stops and every state it reaches is safe. -/
def safeRun : Nat → State → Prop
  | 0, s => SafeState s
  | k + 1, s => SafeState s ∧
    match step s with
    | .next t => safeRun k t
    | .fault _ => False
    | .refused _ => False

end Sys2Proof.Machine
end

