-- ==== Sys2Proof/Certificates/Slice0/Obligations.lean ====
section
/-! DEFINITION. The statements for the provers, each a Prop named under Obligations, with the small vocabulary they are
written in (namespace Sys2Proof.Claims). Bytes of requests and of management payloads are written out as R181 and R189
lay them out; a state after a command is written out field by field, so that everything it does not name is unchanged. -/

namespace Sys2Proof.Claims

open Sys2Proof Sys2Proof.Machine

/-- The request r stands at the head of the lane's queue, before `rest`, and may be executed: RSTN is high and nothing of
the lane is in execution (R31, R89, R175). That a request's row names its lane alone is the model's choice (notes/assumptions/3.md). -/
def Ready (s : State) (lane : Lane) (r : Request) (rest : List Request) : Prop :=
  s.rstnLow = false ∧ laneBusy s lane = false ∧ (s.link lane).queue = r :: rest

/-- The request r at the head of the lane's queue is answered: it leaves the queue, and an answer with its tag and kind joins
the lane's outgoing records (R175, R182). -/
def reply (lane : Lane) (r : Request) (rest : List Request) (code : AnswerCode) (body : List Byte) (s : State) : State :=
  s.modLink lane (fun k =>
    { k with queue := rest, outgoing := k.outgoing ++ [.answer { tag := r.tag, kind := r.kind, code := code, body := body }] })

/-- A management command of a code and payload has been executed with a result (R187, R188): nothing but the frame changes. That a row
stands for its whole frame is the model's choice (notes/assumptions/8.md). -/
def executed (code : Byte) (payload : List Byte) (res : AnswerCode) (data : List Byte) (s : State) : State :=
  { s with mlu := { s.mlu with
      csnLow := true
      staging := code :: BitVec.ofNat 8 payload.length :: payload
      frame := .executed
      result := some { code := res, data := data }
      sent := [] } }

/-- The number two bytes spell, the first the more significant (R179). -/
def two (a b : Byte) : Nat := a.toNat * 256 + b.toNat

/-- The number four bytes spell (R179). -/
def four (a b c d : Byte) : Nat := two a b * 65536 + two c d

/-- The source a byte names. -/
def source (b : Byte) : Option Src := if b = 0 then some .s0 else if b = 1 then some .s1 else none

/-- The sum of f over the numbers below n. -/
def total (n : Nat) (f : Nat → Nat) : Nat := ((List.range n).map f).sum

/-- A lane's queue of notices after one more is placed in it (R104, R105). -/
def noticed (n : Notice) (r : RenditionLane) : RenditionLane :=
  if r.notices.length < 8 then { r with notices := r.notices ++ [n] }
  else { r with notices := r.notices.drop 1 ++ [n], noticeOverruns := satAdd r.noticeOverruns 1, overrun := true }

/-- The management marker queue after one more entry is placed in it (R166). -/
def marked (channel : Nat) (e : Event) (c : Router) : Router :=
  let entry : MarkerEntry := { channel := channel, event := e, overrun := false }
  if c.markers.length < 16 then { c with markers := c.markers ++ [entry] }
  else { c with
    markers := c.markers.drop 1 ++ [entry], markerOverruns := satAdd c.markerOverruns 1, markerOverrun := true }

/-- The channels that an event fires, in channel order (R163, R164). -/
def firing (e : Event) (generators : List Generator) : List Nat :=
  (List.range 6).filter (fun c =>
    match generators.getD c .off with
    | .off => false
    | .scene x => decide (e.kind = .scene ∧ e.source = some x)
    | .chapter x => decide (e.kind = .chapter ∧ e.source = some x)
    | .stalled x => decide (e.kind = .stalled ∧ e.source = some x)
    | .cue => decide (e.kind = .cue)
    | .evict x => decide (e.kind = .evict ∧ e.source = some x)
    | .poolLow => decide (e.kind = .poolLow))

/-- A command that restarts the whole part from the start-up state. -/
def isStartUp : Instr → Bool
  | .powerOnReset => true
  | .boardReset => true
  | _ => false

/-- The command that c performs in s: its own, but for the byte that completes a management frame, which performs the command that the
frame spells (R187). -/
def performed (c : Instr) (s : State) : Instr :=
  match c with
  | .managementFrameCutOff (.byte b) =>
    if s.rstnLow = false ∧ s.mlu.frame = .receiving then (frameCommand (s.mlu.staging ++ [b])).getD c else c
  | c => c

/-- Slot k is the one that a test picks by lowest frame number: it passes the test, and no slot that passes holds a frame below
its frame (R6, R20, R96). -/
def Lowest (p : Slot → Bool) (slots : List Slot) (k : Nat) : Prop :=
  ∃ (c : Slot) (n : FrameNo), slots[k]? = some c ∧ p c = true ∧ slotFrame c = some n ∧
    ∀ (j : Nat) (d : Slot) (m : FrameNo), slots[j]? = some d → p d = true → slotFrame d = some m → frameBelow m n = false

/-- The frame numbers of the slots that pass a test lie within half of the wrap-safe circle, from b on, as R6's order needs. -/
def Comparable (p : Slot → Bool) (slots : List Slot) : Prop :=
  ∃ b : FrameNo, ∀ (c : Slot) (n : FrameNo), c ∈ slots → p c = true → slotFrame c = some n → (n - b).toNat < 2147483648

/-- Every slot that passes the test has a frame number. -/
def Numbered (p : Slot → Bool) (slots : List Slot) : Prop := ∀ c : Slot, c ∈ slots → p c = true → (slotFrame c).isSome = true

end Sys2Proof.Claims

open Sys2Proof Sys2Proof.Machine Sys2Proof.Claims

/-! ### The whole part -/

/-- A step takes the command at the front of the queue and is exec of it on the queue's rest; on an empty queue it takes an event
that is due, or lets one microsecond pass, in which the DRAM carries what is left of its 64 units. The idle part, in which a
request ready at the head of a lane's queue waits for its row, is the model's choice (notes/assumptions/5.md, 6.md, 32.md). -/
def Obligations.StepTakesTheFrontCommand : Prop :=
  (∀ (c : Instr) (rest : List Instr) (s : State), s.pending = c :: rest → step s = exec c { s with pending := rest }) ∧
  (∀ s : State, s.pending = [] → s.rstnLow = true → step s = .next s) ∧
  (∀ (s : State) (c : Instr), s.pending = [] → s.rstnLow = false → dueEvent s = some c → step s = exec c s) ∧
  (∀ s : State, s.pending = [] → s.rstnLow = false → dueEvent s = none →
    step s = .next { s with
      tcu := { s.tcu with time := s.tcu.time + 1 }
      ms := { s.ms with
        room := 64
        dram := match s.ms.dram with
          | .idle => .idle
          | .burst b => .burst { b with remaining := b.remaining - s.ms.room }
          | .refresh n => .refresh (n - s.ms.room) } })

/-- No command touches the model's queue of waiting commands (notes/assumptions/1.md); none but the two resets of the whole part that RSTN and power make sets
the time counter, and they set it to 0 (R143); and none but the end of an ingest burst writes the DRAM (R8, R86, R195). -/
def Obligations.QueueTimeAndMemoryKeepers : Prop :=
  ∀ (c : Instr) (s t : State), exec c s = .next t →
    t.pending = s.pending ∧
    t.tcu.time = (if isStartUp c then 0 else s.tcu.time) ∧
    (c ≠ .ingestBurstComplete → t.mem = s.mem)

/-- The settings of the part are changed by their own commands and by the start-up resets alone: the plan by SET_PLAN, the
attributes and the stencil by ATTR_WRITE and BADGE_WRITE, the detector settings by SET_DETECT, the schedule in force by the end
of a refresh, the pending schedule by SET_SCHEDULE and the end of a refresh, the cue settings by SET_CUE, the generators, the
management subscription and the marker lines' enables and widths by SET_ROUTE, the POOL_LOW threshold and the open-wait and
claim-wait limits by SET_LANE_LIMITS, a cadence interval and stall limit by SET_CADENCE, a chapter enable and gap by SET_CHAPTERS, and
a lane's subscription by its SUBSCRIBE, or cleared by what may reset the lane; a management command acts by its row or by the byte that
completes its frame (R4, R27, R30, R61, R67, R87, R88, R111, R140, R146, R155,
R157, R165, R168, R196). -/
def Obligations.SettingsChangeByTheirOwners : Prop :=
  ∀ (c : Instr) (s t : State), exec c s = .next t → isStartUp c = false →
    (match performed c s with
      | .setPlan _ => True
      | _ => t.fpc.plan = s.fpc.plan) ∧
    (match performed c s with
      | .attrWrite _ => True
      | _ => t.attr.entries = s.attr.entries) ∧
    (match performed c s with
      | .badgeWrite _ => True
      | _ => t.attr.stencil = s.attr.stencil) ∧
    (match performed c s with
      | .setDetect _ => True
      | _ => t.cd.settings = s.cd.settings) ∧
    (match performed c s with
      | .refreshComplete => True
      | _ => t.ms.schedule = s.ms.schedule) ∧
    (match performed c s with
      | .refreshComplete => True
      | .setSchedule _ => True
      | _ => t.ms.pendingSchedule = s.ms.pendingSchedule) ∧
    (match performed c s with
      | .setCue _ => True
      | _ => t.tcu.cueSettings = s.tcu.cueSettings) ∧
    (match performed c s with
      | .setRoute _ => True
      | _ => t.clr.generators = s.clr.generators ∧ t.clr.mgmtSubs = s.clr.mgmtSubs ∧
        t.clr.m0.enabled = s.clr.m0.enabled ∧ t.clr.m0.width = s.clr.m0.width ∧
        t.clr.m1.enabled = s.clr.m1.enabled ∧ t.clr.m1.width = s.clr.m1.width) ∧
    (match performed c s with
      | .setLaneLimits _ => True
      | _ => t.fpc.poolLow = s.fpc.poolLow ∧ (∀ x, (t.il.get x).openLimit = (s.il.get x).openLimit) ∧
        ∀ l, (t.rl.get l).claimLimit = (s.rl.get l).claimLimit) ∧
    (match performed c s with
      | .setCadence _ => True
      | _ => ∀ x, (t.tcu.cadence.get x).interval = (s.tcu.cadence.get x).interval ∧
        (t.tcu.cadence.get x).stallLimit = (s.tcu.cadence.get x).stallLimit) ∧
    (match performed c s with
      | .setChapters _ => True
      | _ => ∀ x, (t.clr.chapters.get x).enabled = (s.clr.chapters.get x).enabled ∧
        (t.clr.chapters.get x).gap = (s.clr.chapters.get x).gap) ∧
    ∀ l, (t.rl.get l).subs = (s.rl.get l).subs ∨ c = .subscribe (.rl l) ∨
      ((t.rl.get l).subs = 0 ∧
        ((∃ p, performed c s = .laneReset p) ∨ c = .linkLoss (.rl l) ∨ ∃ bytes, c = .recordReceived (.rl l) bytes))

/-- Every command completes: it answers a next state unless the burst it completes would reach past the 128 MiB of the DRAM, and
nothing is ever refused. That such a burst faults (notes/assumptions/20.md), and that a command which stands for no event of the part at
this moment answers the state unchanged - a request not at the head of its queue, a deadline or burst not due, anything while RSTN is
low, a state that no run reaches (notes/assumptions/3.md, 10.md, 11.md, 17.md) - are the model's choices. -/
def Obligations.EveryCommandCompletes : Prop :=
  (∀ (c : Instr) (s : State) (r : Refusal), exec c s ≠ .refused r) ∧
  (∀ (c : Instr) (s : State),
    (∀ b x a data, s.ms.dram = .burst b → b.job = .ingest x a data → a + data.length ≤ 134217728) →
    (∀ b (k : AnalysisCtx), s.ms.dram = .burst b → b.job = .detector → s.cd.ctx = some k →
      s.rowPlace k.slot k.cols k.nextRow + 64 * k.cols * 64 ≤ 134217728) →
    (∀ b l (p : BandInProgress) x, s.ms.dram = .burst b → b.job = .band l → s.band = some p →
      slotSource (s.slot p.slot) = some x →
      s.rowPlace p.slot (s.cols x) 0 + s.rows x * (s.cols x * 6144) ≤ 134217728) →
    ∃ t, exec c s = .next t)

/-! ### Resets -/

/-- POWER_ON_RESET and BOARD_RESET bring the part to one start-up state from any state, in which every value the manual states
holds; they keep the bytes of the DRAM, and differ in the reset cause record alone, but that BOARD_RESET is the release of RSTN (R194,
R195). That the commands that wait go on waiting, and that power applied while RSTN is low leaves it low, are the model's choices
(notes/assumptions/13.md).
RSTN low: work under way ends without answers at RSTN_ASSERTED; and while RSTN is low no command but the two start-up resets and RSTN
itself changes anything, but for the level of CSN, which is followed (R187, R195). What RSTN_ASSERTED keeps until the release, the levels of
ATTN, M0 and M1 among it, and that no other command has an effect meanwhile, are the model's choices (notes/assumptions/9.md, 10.md,
29.md). -/
def Obligations.StartUpAndRstn : Prop :=
  (∀ s : State, ∃ t u : State,
    exec .powerOnReset s = .next t ∧ exec .boardReset s = .next u ∧
    u = { t with rstnLow := false, mlu := { t.mlu with cause := s.mlu.cause ||| 2 } } ∧ t.mlu.cause = 1 ∧
    t.mem = s.mem ∧ t.pending = s.pending ∧ t.rstnLow = s.rstnLow ∧ t.mlu.csnLow = s.mlu.csnLow ∧
    (t.fpc.plan = none ∧ t.fpc.slots = [] ∧ t.fpc.waitList = [] ∧ t.fpc.poolLow = 0 ∧
      ∀ x, t.fpc.current.get x = none ∧ t.fpc.nextFrame.get x = 0) ∧
    (∀ lane, t.link lane =
      { up := false, queue := [], outgoing := [], ahead := 0, sending := none, lastSent := [], errors := 0, badRun := 0 }) ∧
    (∀ x, (t.il.get x).openFrame = none ∧ (t.il.get x).pendingOpen = none ∧ (t.il.get x).rowBuffer = none ∧
      (t.il.get x).openLimit = 33) ∧
    (∀ l, (t.rl.get l).binding = none ∧ (t.rl.get l).mark = none ∧ (t.rl.get l).holds = [] ∧
      (t.rl.get l).pendingClaim = none ∧ (t.rl.get l).notices = [] ∧ (t.rl.get l).overrun = false ∧
      (t.rl.get l).subs = 0 ∧ (t.rl.get l).claimLimit = 40 ∧ (t.rl.get l).fetch = none ∧ (t.rl.get l).bandBuffer = none) ∧
    (∀ c, c ∈ counterList t → c = 0) ∧
    (t.cd.queue = [] ∧ t.cd.ctx = none ∧ ∀ x, t.cd.first.get x = true ∧ t.cd.marks.get x = 0 ∧ t.cd.laterWrites.get x = 0 ∧
      t.cd.settings.get x = { tHi := 96, tLo := 48, quiet := 4, percent := 40 } ∧
      t.cd.tiles.get x = List.replicate 640
        { state := .reseed, quietRun := 0, signature := List.replicate 16 0, lastChanged := none }) ∧
    ((∀ x, t.attr.entries.get x = List.replicate 640 .none) ∧
      t.attr.stencil = { lines := List.replicate 64 0, fg := 235, bg := 16 }) ∧
    (t.band = none ∧ t.ms.dram = .idle ∧ t.ms.room = 64 ∧ t.ms.refreshDue = false ∧ t.ms.pendingSchedule = none ∧
      t.ms.schedule.priority = none ∧ t.ms.ingestPtr = .s0 ∧ t.ms.roundRobin = .r0 ∧
      (∀ r, t.ms.waiting.get r = none ∧ t.ms.balance.get r = 2 * t.ms.schedule.allowance.get r) ∧
      (∀ x, t.ms.schedule.allowance.get (.il x) = 1000) ∧ t.ms.schedule.allowance.get .det = 1500 ∧
      (∀ l, t.ms.schedule.allowance.get (.rl l) = 2000)) ∧
    (t.tcu.time = 0 ∧ t.tcu.nextPeriod = 1000 ∧ t.tcu.cues = [] ∧ t.tcu.spacingHold = none ∧
      t.tcu.cueSettings = { enabled := false, edge := .rising, target := .s0, spacing := 150, window := 6 } ∧
      ∀ x, t.tcu.cadence.get x = { interval := 0, stallLimit := 30, timer := none, repeats := 0, stalled := false }) ∧
    (t.clr.log = [] ∧ t.clr.nextSeq = 0 ∧ t.clr.markers = [] ∧ t.clr.markerOverrun = false ∧ t.clr.mgmtSubs = 0 ∧
      t.clr.generators = List.replicate 6 .off ∧
      t.clr.m0 = { enabled := false, width := 20, high := none } ∧ t.clr.m1 = { enabled := false, width := 20, high := none } ∧
      ∀ x, t.clr.chapters.get x = { enabled := false, gap := 300, last := none }) ∧
    (t.mlu.staging = [] ∧ t.mlu.frame = .idle ∧ t.mlu.result = none ∧ t.mlu.sent = [])) ∧
  (∀ s : State, ∃ t, exec .rstnAsserted s = .next t ∧ t.rstnLow = true ∧
    (∀ lane, (t.link lane).queue = [] ∧ (t.link lane).outgoing = [] ∧ (t.link lane).sending = none) ∧
    t.fpc.waitList = [] ∧ (∀ x, (t.il.get x).pendingOpen = none ∧ (t.il.get x).rowBuffer = none) ∧
    (∀ l, (t.rl.get l).pendingClaim = none ∧ (t.rl.get l).fetch = none ∧ (t.rl.get l).bandBuffer = none) ∧
    t.cd.queue = [] ∧ t.cd.ctx = none ∧ t.band = none ∧ t.ms.dram = .idle ∧ t.mlu.frame = .idle ∧ t.mlu.staging = [] ∧
    t.mem = s.mem ∧ t.attr = s.attr ∧ t.tcu = s.tcu ∧ t.clr = s.clr ∧ t.mlu.cause = s.mlu.cause) ∧
  (∀ (c : Instr) (s : State), s.rstnLow = true → isStartUp c = false → c ≠ .rstnAsserted →
    c ≠ .managementFrameCutOff .fall → c ≠ .managementFrameCutOff .rise → exec c s = .next s) ∧
  (∀ s : State, s.rstnLow = true →
    exec (.managementFrameCutOff .fall) s = .next { s with mlu := { s.mlu with csnLow := true } } ∧
    exec (.managementFrameCutOff .rise) s = .next { s with mlu := { s.mlu with csnLow := false } })

/-- SOFT_RESET (R27, R45, R74, R112, R142, R156, R170, R178, R196): the pool is emptied, every request of every lane is answered
ABORTED in arrival order behind the answers already waiting, all of which leave before what the lane produces afterwards, the part's work ends, the numbering and the counters restart; and
the plan, the settings, the subscriptions, the chapter log, the links and the time are kept. That the band-in-progress record goes at the
reset itself, and not at the end of its burst, is the model's choice (notes/assumptions/31.md). -/
def Obligations.SoftResetEffects : Prop :=
  ∀ s : State, s.rstnLow = false → ∃ t : State,
    exec (.softReset []) s = .next (executed 48 [] .ok [] t) ∧
    (t.fpc.slots = List.replicate s.fpc.slots.length .free ∧ t.fpc.waitList = [] ∧ t.fpc.plan = s.fpc.plan ∧
      t.fpc.poolLow = s.fpc.poolLow ∧ ∀ x, t.fpc.current.get x = none ∧ t.fpc.nextFrame.get x = 0) ∧
    (∀ lane, (t.link lane).queue = [] ∧ (t.link lane).up = (s.link lane).up ∧
      (t.link lane).errors = 0 ∧ (t.link lane).badRun = 0 ∧
      (t.link lane).outgoing = (s.link lane).outgoing.filter (fun o => decide (o ≠ .bandData)) ++
        (s.link lane).queue.map (fun r => .answer { tag := r.tag, kind := r.kind, code := .aborted, body := [] }) ∧
      (t.link lane).ahead = (t.link lane).outgoing.length ∧
      (t.link lane).sending = (s.link lane).sending.map (fun d => { d with live := false })) ∧
    (∀ x, (t.il.get x).openFrame = none ∧ (t.il.get x).pendingOpen = none ∧ (t.il.get x).rowBuffer = none ∧
      (t.il.get x).openLimit = (s.il.get x).openLimit) ∧
    (∀ l, (t.rl.get l).binding = none ∧ (t.rl.get l).mark = none ∧ (t.rl.get l).holds = [] ∧
      (t.rl.get l).pendingClaim = none ∧ (t.rl.get l).notices = [] ∧ (t.rl.get l).overrun = false ∧
      (t.rl.get l).fetch = none ∧ (t.rl.get l).bandBuffer = none ∧
      (t.rl.get l).subs = (s.rl.get l).subs ∧ (t.rl.get l).claimLimit = (s.rl.get l).claimLimit) ∧
    (∀ c, c ∈ counterList t → c = 0) ∧
    (t.cd = { Detector.reset with settings := s.cd.settings } ∧ t.band = none ∧ t.attr = s.attr ∧ t.mem = s.mem) ∧
    ((∀ r, t.ms.waiting.get r = none ∧ t.ms.balance.get r = 2 * s.ms.schedule.allowance.get r) ∧
      t.ms.schedule = s.ms.schedule ∧ t.ms.pendingSchedule = s.ms.pendingSchedule ∧ t.ms.refreshDue = s.ms.refreshDue ∧
      t.ms.ingestPtr = .s0 ∧ t.ms.roundRobin = .r0 ∧
      t.ms.dram = match s.ms.dram with
        | .burst b => .burst { b with live := false }
        | d => d) ∧
    (t.tcu.time = s.tcu.time ∧ t.tcu.nextPeriod = s.tcu.nextPeriod ∧ t.tcu.cueSettings = s.tcu.cueSettings ∧
      t.tcu.cues = [] ∧ t.tcu.spacingHold = none ∧
      ∀ x, t.tcu.cadence.get x = { s.tcu.cadence.get x with repeats := 0, stalled := false }) ∧
    (t.clr.log = s.clr.log ∧ t.clr.nextSeq = s.clr.nextSeq ∧ t.clr.generators = s.clr.generators ∧
      t.clr.mgmtSubs = s.clr.mgmtSubs ∧ t.clr.markers = [] ∧ t.clr.markerOverrun = false ∧ t.clr.m0 = s.clr.m0 ∧
      t.clr.m1 = s.clr.m1 ∧ ∀ x, t.clr.chapters.get x = { s.clr.chapters.get x with last := none }) ∧
    t.mlu.cause = s.mlu.cause ||| 4 ∧ t.pending = s.pending

/-- The reset of a lane (R28, R43, R111, R125, R141, R172). An ingest lane's link goes DOWN with nothing queued or waiting to be sent, its
flag is set, its burst request is withdrawn and a running burst works for nobody, its wait list entry leaves, and the slot of its open
frame becomes FREE, whereupon the slot wait list is served. A rendition lane's record and link are cleared, keeping its counters and
its claim-wait limit, its flag is set, its holds are released and it leaves every owed set; then the slots so changed are examined in
order. Everything else is unchanged. That the record goes before the slots within the one step is the model's choice
(notes/assumptions/7.md). -/
def Obligations.LaneResetEffects : Prop :=
  (∀ (s : State) (x : Src),
    let k := s.il.get x
    let u : State := { s with
      il := s.il.set x { k with
        link := { k.link with up := false, queue := [], outgoing := [], ahead := 0, sending := none, badRun := 0 }
        openFrame := none, pendingOpen := none, rowBuffer := none }
      fpc := { s.fpc with waitList := s.fpc.waitList.filter (fun e => decide (e.source ≠ x)) }
      ms := { s.ms with
        waiting := s.ms.waiting.set (.il x) none
        dram := match s.ms.dram with
          | .burst b =>
            match b.job with
            | .ingest y _ _ => if y = x then .burst { b with live := false } else .burst b
            | _ => .burst b
          | d => d }
      mlu := { s.mlu with cause := s.mlu.cause ||| BitVec.twoPow 9 (3 + srcNum x) } }
    resetLane (.il x) s = match k.openFrame with
      | none => u
      | some j => serveWaitList { u with fpc := { u.fpc with slots := u.fpc.slots.set j .free } }) ∧
  (∀ (s : State) (l : RLane),
    let r := s.rl.get l
    resetLane (.rl l) s = settle s.fpc.slots { s with
      rl := s.rl.set l { r with
        link := { r.link with up := false, queue := [], outgoing := [], ahead := 0, sending := none, badRun := 0 }
        binding := none, mark := none, holds := [], pendingClaim := none, notices := [], overrun := false, subs := 0
        fetch := none, bandBuffer := none }
      fpc := { s.fpc with slots := s.fpc.slots.mapIdx (fun i c =>
        match c with
        | .analysed cur f v h owed =>
          .analysed cur f v (if r.holds.any (fun e => decide (e.slot = i)) then h - 1 else h) (owed.set l false)
        | c => c) }
      ms := { s.ms with
        waiting := s.ms.waiting.set (.rl l) none
        dram := match s.ms.dram with
          | .burst b =>
            match b.job with
            | .band j => if j = l then .burst { b with live := false } else .burst b
            | _ => .burst b
          | d => d }
      mlu := { s.mlu with cause := s.mlu.cause ||| BitVec.twoPow 9 (5 + rlNum l) } })


/-! ### The frame pool -/

/-- Serving the slot wait list (R23): when no entry can be served nothing changes; otherwise the first entry that can be served
leaves the list and is served, and the list is gone through again; and afterwards no entry that can be served is left. -/
def Obligations.WaitListServiceOrder : Prop :=
  (∀ s : State, (∀ e, e ∈ s.fpc.waitList → openChoice e.source s = none) → serveWaitList s = s) ∧
  (∀ (s : State) (before after : List WaitEntry) (e : WaitEntry) (c : OpenChoice),
    s.fpc.waitList = before ++ e :: after → (∀ d, d ∈ before → openChoice d.source s = none) →
    openChoice e.source s = some c →
    serveWaitList s = serveWaitList (serveOpen e.source e.pts c
      { s with fpc := { s.fpc with waitList := s.fpc.waitList.filter (fun d => decide (d.source ≠ e.source)) } })) ∧
  (∀ (s : State) (e : WaitEntry), e ∈ (serveWaitList s).fpc.waitList → openChoice e.source (serveWaitList s) = none)

/-- The free check and the service of the wait list over the slots an event touched (R13, R16, R17, R18, R23).
One slot: a STALE slot that nothing holds and no lane is owed becomes FREE, and the wait list is served; one that has newly become an
eviction candidate has the wait list served; any other is left as it is. An event: the slots whose hold count or owed set it changed are
so examined one after another in increasing order of slot id, each in the state the one before left. A lane that leaves a source leaves
the owed set of every slot of that source, and the slots so changed are examined. With no open waiting, each touched slot that is STALE,
unheld and owed to no lane becomes FREE, and every other slot, and everything else, is unchanged. -/
def Obligations.FreeCheckAndSettling : Prop :=
  (∀ (was : Slot) (k : Nat) (s : State),
    let owedToSome := fun (o : PerRL Bool) => ∃ l : RLane, o.get l = true
    let candidate := fun (c : Slot) => ∃ f v o, c = .analysed false f v 0 o ∧ owedToSome o
    (∀ f v o, s.fpc.slots[k]? = some (.analysed false f v 0 o) → ¬ owedToSome o →
      examineSlot was k s = serveWaitList { s with fpc := { s.fpc with slots := s.fpc.slots.set k .free } }) ∧
    (∀ c, s.fpc.slots[k]? = some c → candidate c → ¬ candidate was → examineSlot was k s = serveWaitList s) ∧
    (∀ c, s.fpc.slots[k]? = some c → candidate c → candidate was → examineSlot was k s = s) ∧
    ((∀ f v o, s.fpc.slots[k]? ≠ some (.analysed false f v 0 o)) → examineSlot was k s = s)) ∧
  (∀ (before : List Slot) (s : State), before.length = s.fpc.slots.length →
    let touched := fun (k : Nat) =>
      decide (slotHolds (before.getD k .free) ≠ slotHolds (s.fpc.slots.getD k .free) ∨
        slotOwed (before.getD k .free) ≠ slotOwed (s.fpc.slots.getD k .free))
    settle before s =
      ((List.range before.length).filter touched).foldl (fun t k => examineSlot (before.getD k .free) k t) s) ∧
  (∀ (l : RLane) (x : Src) (s : State),
    leaveSource l x s = settle s.fpc.slots { s with fpc := { s.fpc with slots := s.fpc.slots.map (fun c => match c with
      | .analysed cur f v h owed => if f.source = x then .analysed cur f v h (owed.set l false) else c
      | c => c) } }) ∧
  (∀ (before : List Slot) (s : State), before.length = s.fpc.slots.length → s.fpc.waitList = [] →
    settle before s = { s with fpc := { s.fpc with slots := s.fpc.slots.mapIdx (fun i c =>
      if slotHolds (before.getD i .free) = slotHolds c ∧ slotOwed (before.getD i .free) = slotOwed c then c
      else match c with
        | .analysed false _ _ 0 owed =>
          if owed.r0 = false ∧ owed.r1 = false ∧ owed.r2 = false ∧ owed.r3 = false then .free else c
        | c => c) } })

/-- How an open of source x is served (R20, R6): from the lowest FREE slot exactly when x is below its quota and some slot is
FREE; otherwise by evicting the candidate with the lowest frame number, a STALE slot of x that nothing holds and some lane is owed;
otherwise it waits. The candidates' frame numbers lie within the wrap-safe order, as StepKeepsNumbers gives for every pool. That a slot
owed to none is no candidate is the model's reading (notes/assumptions/27.md). -/
def Obligations.OpenServedByR20 : Prop :=
  ∀ (s : State) (x : Src),
    let freeAt := fun (k : Nat) => s.fpc.slots[k]? = some Slot.free
    let mayUseFree := s.occupancy x < s.quota x ∧ ∃ k, freeAt k
    let candidate := fun (c : Slot) => match c with
      | .analysed false f _ 0 owed => decide (f.source = x) && (owed.r0 || owed.r1 || owed.r2 || owed.r3)
      | _ => false
    (∀ k, openChoice x s = some (.fromFree k) ↔
      s.occupancy x < s.quota x ∧ freeAt k ∧ ∀ j, j < k → ¬ freeAt j) ∧
    (∀ k, openChoice x s = some (.evict k) → ¬ mayUseFree ∧ ∃ c, s.fpc.slots[k]? = some c ∧ candidate c = true) ∧
    (∀ k, Comparable candidate s.fpc.slots → openChoice x s = some (.evict k) → Lowest candidate s.fpc.slots k) ∧
    (openChoice x s = none ↔ ¬ mayUseFree ∧ ∀ c, c ∈ s.fpc.slots → candidate c = false)

/-- An open served (R7, R21, R25): from a FREE slot, the slot becomes the FILLING slot of the source with no row written and the
lane's open frame, POOL_LOW fires exactly when the number of FREE slots falls from at least the threshold to below it, and the open
is answered OK with the slot id; by eviction, each lane owed the frame gets a LOST notice and a lost count, the eviction is counted,
EVICT fires, and the slot is filled in the same step. -/
def Obligations.OpenServiceEffects : Prop :=
  ∀ (s : State) (x : Src) (pts : Pts) (k : Nat) (r : Request) (rest : List Request),
    (s.il.get x).link.queue = r :: rest →
    let fill := fun (u : State) =>
      ({ u with fpc := { u.fpc with slots := u.fpc.slots.set k (.filling x pts 0) } } : State).modIl x
        (fun i => { i with openFrame := some k, pendingOpen := none })
    let ok := reply (.il x) r rest .ok [BitVec.ofNat 8 k]
    (s.fpc.slots[k]? = some .free →
      serveOpen x pts (.fromFree k) s =
        ok (if s.fpc.poolLow ≤ s.freeCount ∧ s.freeCount - 1 < s.fpc.poolLow
          then fireEvent { kind := .poolLow, source := none, frame := none } (fill s) else fill s)) ∧
    (∀ cur f v h owed, s.fpc.slots[k]? = some (.analysed cur f v h owed) →
      ∃ u : State,
        serveOpen x pts (.evict k) s =
          ok (fill (fireEvent { kind := .evict, source := some f.source, frame := some f.number } u)) ∧
        (∀ l, u.rl.get l = if owed.get l then
            { noticed (.lost f.source f.number) (s.rl.get l) with lost := satAdd (s.rl.get l).lost 1 }
          else s.rl.get l) ∧
        (let count := s.mlu.counters.get f.source
        u = { s with
          rl := u.rl
          mlu := { s.mlu with
            counters := s.mlu.counters.set f.source { count with evictions := satAdd count.evictions 1 } } }))

/-- An event is raised (R105, R163, R164, R166, R168): for each channel whose generator names it, in channel order, each subscribed
lane gets a MARKER notice, the management marker queue an entry when it subscribes, and the enabled line of channel 0 or 1 goes or
stays HIGH until its width from now. Nothing else changes. -/
def Obligations.EventRouting : Prop :=
  ∀ (s : State) (e : Event), ∃ t : State, fireEvent e s = t ∧
    (∀ l, t.rl.get l =
      ((firing e s.clr.generators).filter (fun c => (s.rl.get l).subs.getLsbD c)).foldl
        (fun r c => noticed (.marker c e) r) (s.rl.get l)) ∧
    t = { s with
      rl := t.rl
      clr :=
        let c := ((firing e s.clr.generators).filter (fun c => s.clr.mgmtSubs.getLsbD c)).foldl
          (fun r c => marked c e r) s.clr
        { c with
          m0 := if 0 ∈ firing e s.clr.generators ∧ s.clr.m0.enabled = true
            then { s.clr.m0 with high := some (s.tcu.time + BitVec.ofNat 32 s.clr.m0.width) } else s.clr.m0
          m1 := if 1 ∈ firing e s.clr.generators ∧ s.clr.m1.enabled = true
            then { s.clr.m1 with high := some (s.tcu.time + BitVec.ofNat 32 s.clr.m1.width) } else s.clr.m1 } }

/-! ### Lane links -/

/-- The lane links. LINK_TRAINING_COMPLETE brings a lane UP; LINK_LOSS resets an UP lane; LANE_RESET resets the lane it names, UP or DOWN,
and refuses a number above 5 (R171, R172, R197).
RECORD_RECEIVED (R173, R174, R175): a good record joins the queue, or is answered QUEUE_FULL when four requests stand in it, and sets
the consecutive bad count to 0; a bad record is discarded and counted, and the fourth in a row resets the lane; a DOWN lane receives
nothing.
A malformed request at the head of any lane's queue is answered BAD_ARG, and a well-formed request of the other family is answered
WRONG_LANE; neither changes anything else (R31, R89, R176, R181). A request is malformed when its kind byte names no request or its
payload length is not the kind's; a PUT_ROWS is malformed when its payload is empty. -/
def Obligations.LaneLinkCommands : Prop :=
  (∀ s : State, s.rstnLow = false →
    (∀ lane, exec (.linkTrainingComplete lane) s = .next (s.modLink lane (fun k => { k with up := true }))) ∧
    (∀ lane, (s.link lane).up = true → exec (.linkLoss lane) s = .next (resetLane lane s)) ∧
    (∀ lane, (s.link lane).up = false → exec (.linkLoss lane) s = .next s) ∧
    (∀ x : Src, exec (.laneReset [BitVec.ofNat 8 (srcNum x)]) s =
      .next (executed 49 [BitVec.ofNat 8 (srcNum x)] .ok [] (resetLane (.il x) s))) ∧
    (∀ l : RLane, exec (.laneReset [BitVec.ofNat 8 (2 + rlNum l)]) s =
      .next (executed 49 [BitVec.ofNat 8 (2 + rlNum l)] .ok [] (resetLane (.rl l) s))) ∧
    (∀ n : Byte, 5 < n.toNat → exec (.laneReset [n]) s = .next (executed 49 [n] .badArg [] s))) ∧
  (∀ (s : State) (lane : Lane) (bytes : List Byte), s.rstnLow = false →
    let k := s.link lane
    let counted := s.modLink lane (fun k => { k with errors := satAdd k.errors 1, badRun := k.badRun + 1 })
    (k.up = false → exec (.recordReceived lane bytes) s = .next s) ∧
    (∀ r, k.up = true → goodRecord bytes = some r → k.queue.length < 4 →
      exec (.recordReceived lane bytes) s =
        .next (s.modLink lane (fun k => { k with badRun := 0, queue := k.queue ++ [r] }))) ∧
    (∀ r, k.up = true → goodRecord bytes = some r → 4 ≤ k.queue.length →
      exec (.recordReceived lane bytes) s =
        .next (s.modLink lane (fun k => { k with
          badRun := 0
          outgoing := k.outgoing ++ [.answer { tag := r.tag, kind := r.kind, code := .queueFull, body := [] }] }))) ∧
    (k.up = true → goodRecord bytes = none → k.badRun < 3 → exec (.recordReceived lane bytes) s = .next counted) ∧
    (k.up = true → goodRecord bytes = none → 3 ≤ k.badRun →
      exec (.recordReceived lane bytes) s = .next (resetLane lane counted))) ∧
  (∀ (s : State) (r : Request) (rest : List Request),
    (∀ lane, Ready s lane r rest → requestKind r = none →
      exec (.malformedRequest lane) s = .next (reply lane r rest .badArg [] s)) ∧
    (∀ l, Ready s (.rl l) r rest →
      let wrong := Host.Outcome.next (φ := Fault) (ρ := Refusal) (reply (.rl l) r rest .wrongLane [] s)
      (r.kind = 1 → r.payload.length = 6 → exec (.openFrame (.rl l)) s = wrong) ∧
      (r.kind = 2 → 1 ≤ r.payload.length → exec (.putRows (.rl l)) s = wrong) ∧
      (r.kind = 3 → r.payload = [] → exec (.sealFrame (.rl l)) s = wrong) ∧
      (r.kind = 4 → r.payload = [] → exec (.abandonFrame (.rl l)) s = wrong)) ∧
    (∀ x, Ready s (.il x) r rest →
      let wrong := Host.Outcome.next (φ := Fault) (ρ := Refusal) (reply (.il x) r rest .wrongLane [] s)
      (r.kind = 17 → r.payload.length = 11 → exec (.bind (.il x)) s = wrong) ∧
      (r.kind = 18 → r.payload = [] → exec (.unbind (.il x)) s = wrong) ∧
      (∀ n, r.kind = 19 → r.payload = 0 :: n → n.length = 4 → exec (.claimNext (.il x)) s = wrong) ∧
      (∀ n, r.kind = 19 → r.payload = 1 :: n → n.length = 4 → exec (.claimLatest (.il x)) s = wrong) ∧
      (∀ n, r.kind = 19 → r.payload = 2 :: n → n.length = 4 → exec (.claimNumber (.il x)) s = wrong) ∧
      (r.kind = 20 → r.payload.length = 1 → exec (.release (.il x)) s = wrong) ∧
      (r.kind = 21 → r.payload.length = 3 → exec (.fetch (.il x)) s = wrong) ∧
      (∀ k n, r.kind = 22 → r.payload = k :: 0 :: n → n.length = 4 → exec (.fetchMaskFrame (.il x)) s = wrong) ∧
      (∀ k n, r.kind = 22 → r.payload = k :: 1 :: n → n.length = 4 → exec (.fetchMaskSince (.il x)) s = wrong) ∧
      (r.kind = 23 → r.payload.length = 1 → exec (.subscribe (.il x)) s = wrong)) ∧
    (requestKind r = none ↔
      ¬ ((r.kind = 1 ∧ r.payload.length = 6) ∨ (r.kind = 2 ∧ 1 ≤ r.payload.length) ∨ (r.kind = 3 ∧ r.payload.length = 0) ∨
        (r.kind = 4 ∧ r.payload.length = 0) ∨ (r.kind = 17 ∧ r.payload.length = 11) ∨ (r.kind = 18 ∧ r.payload.length = 0) ∨
        (r.kind = 19 ∧ r.payload.length = 5) ∨ (r.kind = 20 ∧ r.payload.length = 1) ∨ (r.kind = 21 ∧ r.payload.length = 3) ∨
        (r.kind = 22 ∧ r.payload.length = 6) ∨ (r.kind = 23 ∧ r.payload.length = 1))))

/-- What makes a record good (R173, R180): a record laid out as kind, tag, three length bytes, payload and the CRC over all of that,
high byte first, is read back as its request; with another CRC, with a length field that is not the number of payload bytes, with
a longer payload than 196,609 bytes, or with fewer than seven bytes it is bad. -/
def Obligations.GoodRecordsReadBack : Prop :=
  (∀ (kind tag : Byte) (payload : List Byte), payload.length ≤ 196609 →
    goodRecord (sealRecord kind tag payload) = some { kind := kind, tag := tag, payload := payload }) ∧
  (∀ (kind tag l2 l1 l0 c1 c0 : Byte) (payload : List Byte),
    let body := kind :: tag :: l2 :: l1 :: l0 :: payload
    (goodRecord (body ++ [c1, c0])).isSome = true ↔
      l2.toNat * 65536 + two l1 l0 = payload.length ∧ payload.length ≤ 196609 ∧ two c1 c0 = (crc16 body).toNat) ∧
  (∀ bytes : List Byte, bytes.length < 7 → goodRecord bytes = none)

/-- The layouts of what the part sends (R1, R173, R177 to R184, R186, R188, R189): the CRC is that of x^16 + x^12 + x^5 + 1 from 65,535, each byte
most significant bit first; fields stand most significant byte first; a record is kind, tag, three length bytes, payload and CRC; the
payloads of answers, bands and the four notices; the codes of answers, classes, events, reasons, attributes and slot states, and the flags
byte; the bytes of a management frame after its command; and the place of a tile row in the DRAM. -/
def Obligations.RecordLayouts : Prop :=
  (∀ bs : List Byte, crc16 bs =
    (bs.flatMap (fun b => [7, 6, 5, 4, 3, 2, 1, 0].map (fun i => b.getLsbD i))).foldl
      (fun (r : BitVec 16) bit => if r.getLsbD 15 = bit then r <<< 1 else (r <<< 1) ^^^ 0x1021#16) 0xFFFF#16) ∧
  (∀ v : Nat, beBytes 1 v = [BitVec.ofNat 8 v] ∧ beBytes 2 v = [BitVec.ofNat 8 (v / 256), BitVec.ofNat 8 v] ∧
    beBytes 3 v = [BitVec.ofNat 8 (v / 65536), BitVec.ofNat 8 (v / 256), BitVec.ofNat 8 v] ∧
    beBytes 4 v = [BitVec.ofNat 8 (v / 16777216), BitVec.ofNat 8 (v / 65536), BitVec.ofNat 8 (v / 256), BitVec.ofNat 8 v] ∧
    (∀ n : Nat, (beBytes n v).length = n ∧ beNat (beBytes n v) = v % 256 ^ n)) ∧
  (∀ (kind tag : Byte) (payload : List Byte),
    let body := kind :: tag :: beBytes 3 payload.length ++ payload
    sealRecord kind tag payload = body ++ beBytes 2 (crc16 body).toNat) ∧
  (∀ a : Answer, recordBytes (.answer a) = sealRecord 64 a.tag (a.kind :: BitVec.ofNat 8 (answerNum a.code) :: a.body)) ∧
  (∀ b : Band, recordBytes (.band b) = sealRecord 66 b.tag (BitVec.ofNat 8 b.slot :: BitVec.ofNat 8 b.index :: b.data)) ∧
  (∀ (overrun : Bool) (x : Src) (n : FrameNo),
    let src : Byte := if x = .s0 then 0 else 1
    let flags : Byte := if overrun then 3 else 2
    let number := beBytes 4 n.toNat
    (∀ c f, recordBytes (.notice overrun (.ready x n c f)) =
      sealRecord 65 0 ([0, flags, src] ++ number ++ [BitVec.ofNat 8 (classNum c), BitVec.ofNat 8 (flagsByte f), 0, 0, 0, 0])) ∧
    (∀ k, recordBytes (.notice overrun (.repeated x n k)) =
      sealRecord 65 0 ([1, flags, src] ++ number ++ [0, 0] ++ beBytes 2 k.toNat ++ [0, 0])) ∧
    recordBytes (.notice overrun (.lost x n)) = sealRecord 65 0 ([2, flags, src] ++ number ++ [0, 0, 0, 0, 0, 0])) ∧
  (∀ (overrun : Bool) (channel : Nat) (e : Event),
    recordBytes (.notice overrun (.marker channel e)) = sealRecord 65 0
      ([3, BitVec.ofNat 8 ((if overrun then 1 else 0) + (if e.frame.isSome then 2 else 0)),
        match e.source with
        | none => 255
        | some .s0 => 0
        | some .s1 => 1] ++ beBytes 4 ((e.frame.map BitVec.toNat).getD 0) ++
      [0, 0, 0, 0, BitVec.ofNat 8 channel, BitVec.ofNat 8 (eventNum e.kind)])) ∧
  ([AnswerCode.ok, .queueFull, .wrongLane, .noPlan, .badArg, .order, .poolFull, .notFilling, .incomplete, .notBound, .busy,
    .holdLimit, .notHeld, .noFrame, .gone, .notYet, .windowCost, .aborted].map answerNum = List.range 18) ∧
  ([FrameClass.hold, .patch, .scene].map classNum = [0, 1, 2] ∧ [ChapterReason.first, .cue, .scene].map reasonNum = [0, 1, 2] ∧
    [EventKind.scene, .chapter, .stalled, .cue, .evict, .poolLow].map eventNum = [0, 1, 2, 3, 4, 5] ∧
    [Attr.none, .privacy, .badge, .ignore].map attrNum = [0, 1, 2, 3] ∧
    [SlotState.free, .filling, .queued, .analysing, .current, .stale].map slotStateNum = [0, 1, 2, 3, 4, 5]) ∧
  (∀ f : FrameFlags, flagsByte f < 16 ∧ (flagsByte f).testBit 0 = f.first ∧ (flagsByte f).testBit 1 = f.cue ∧
    (flagsByte f).testBit 2 = f.chapter ∧ (flagsByte f).testBit 3 = f.attr) ∧
  (∀ (m : Mlu) (r : CommandResult), m.result = some r →
    resultByte m 0 = 0 ∧ resultByte m 1 = 0 ∧ resultByte m 2 = BitVec.ofNat 8 (answerNum r.code) ∧
    ∀ i, resultByte m (3 + i) = if h : i < r.data.length then r.data[i] else 0) ∧
  (∀ p : Plan,
    let size := fun (q : SourcePlan) => q.cols * q.rows * 6144
    (∀ x, (p.source.get x).enabled = true → size (p.source.get x) ≤ slotSize p) ∧
    (slotSize p = 0 ∨ ∃ x, (p.source.get x).enabled = true ∧ slotSize p = size (p.source.get x)) ∧
    ∀ (s : State) (k cols r : Nat), s.fpc.plan = some p → s.rowPlace k cols r = k * slotSize p + r * (cols * 6144))

/-! ### Ingest lanes -/

/-- OPEN_FRAME (R22, R31, R32, R33): answered by its first failing check; served at once when R20 finds a slot; otherwise refused
POOL_FULL and counted as a drop under an open-wait limit of 0, and otherwise it waits with its deadline. -/
def Obligations.OpenFrameMeaning : Prop :=
  ∀ (s : State) (x : Src) (tag : Byte) (p : List Byte) (rest : List Request), p.length = 6 →
    let r : Request := { kind := 1, tag := tag, payload := p }
    let pts : Pts := BitVec.ofNat 48 (beNat p)
    let due : Stamp := s.tcu.time + BitVec.ofNat 32 (1000 * (s.il.get x).openLimit)
    Ready s (.il x) r rest →
    exec (.openFrame (.il x)) s =
      if s.fpc.plan = none then .next (reply (.il x) r rest .noPlan [] s)
      else if s.enabled x = false then .next (reply (.il x) r rest .badArg [] s)
      else if (s.il.get x).openFrame ≠ none then .next (reply (.il x) r rest .order [] s)
      else match openChoice x s with
        | some c => .next (serveOpen x pts c s)
        | none =>
          if (s.il.get x).openLimit = 0 then
            .next (reply (.il x) r rest .poolFull []
              (s.modCounters x (fun c => { c with drops := satAdd c.drops 1 })))
          else
            .next (({ s with fpc := { s.fpc with
                waitList := s.fpc.waitList ++ [{ source := x, pts := pts, deadline := due }] } } : State).modIl x
              (fun i => { i with pendingOpen := some { tag := tag, pts := pts, deadline := due } }))

/-- PUT_ROWS (R31, R35, R36, R131): answered by its first failing check, and otherwise the row stands in the row buffer and its
burst, of cost 2 + 24 × tile columns, is requested. -/
def Obligations.PutRowsMeaning : Prop :=
  ∀ (s : State) (x : Src) (tag row : Byte) (data : List Byte) (rest : List Request),
    let r : Request := { kind := 2, tag := tag, payload := row :: data }
    Ready s (.il x) r rest →
    exec (.putRows (.il x)) s =
      if s.fpc.plan = none then .next (reply (.il x) r rest .noPlan [] s)
      else match (s.il.get x).openFrame with
        | none => .next (reply (.il x) r rest .notFilling [] s)
        | some k =>
          if s.rows x ≤ row.toNat ∨ data.length ≠ s.cols x * 6144 then .next (reply (.il x) r rest .badArg [] s)
          else if row.toNat ≠ rowsWritten s k then
            .next (reply (.il x) r rest .order [BitVec.ofNat 8 (rowsWritten s k)] s)
          else .next (placeRequest (.il x) (2 + 24 * s.cols x)
            (s.modIl x (fun i => { i with rowBuffer := some { row := row.toNat, data := data } })))

/-- The end of an ingest burst (R35, R37, R129): exactly the burst's bytes of the DRAM are written; when its PUT_ROWS is still under
way, the rows written of the lane's open frame grow by one, the row buffer empties and the request is answered with the new count;
otherwise no slot and no lane changes; and the DRAM goes on to its next grant. That a burst may complete as soon
as what it has still to carry fits into the rest of its microsecond is the model's choice (notes/assumptions/6.md). -/
def Obligations.IngestBurstMeaning : Prop :=
  ∀ (s : State) (b : Burst) (x : Src) (a : Nat) (data : List Byte),
    s.rstnLow = false → s.ms.dram = .burst b → b.job = .ingest x a data → b.remaining ≤ s.ms.room → a + data.length ≤ 134217728 →
    ∃ m : List Host.Cell,
      (∀ i, readByte m i = if a ≤ i ∧ i < a + data.length then data.getD (i - a) 0 else readByte s.mem i) ∧
      (b.live = false → exec .ingestBurstComplete s = .next (endBurst { s with mem := m })) ∧
      (∀ k y p n r rest, b.live = true → (s.il.get x).openFrame = some k → s.fpc.slots[k]? = some (.filling y p n) →
        (s.il.get x).link.queue = r :: rest →
        exec .ingestBurstComplete s = .next (endBurst (reply (.il x) r rest .ok [BitVec.ofNat 8 (n + 1)]
          (({ s with
            mem := m
            fpc := { s.fpc with slots := s.fpc.slots.set k (.filling y p (n + 1)) } } : State).modIl x
              (fun i => { i with rowBuffer := none })))))

/-- SEAL_FRAME and ABANDON_FRAME (R8, R9, R31, R38, R39, R40, R149). A seal with every row written gives the slot the next frame
number and the time as its arrival stamp, queues it for analysis, restarts the source's cadence, leaves the lane without an open
frame, and answers with number and stamp; an idle detector then starts. A seal with rows missing is answered INCOMPLETE. An
abandon frees the slot, is answered OK, and the slot wait list is served; it consumes no number. -/
def Obligations.SealAndAbandonMeaning : Prop :=
  ∀ (s : State) (x : Src) (tag : Byte) (rest : List Request),
    let q : Request := { kind := 3, tag := tag, payload := [] }
    let r : Request := { kind := 4, tag := tag, payload := [] }
    let now := s.tcu.time
    let n := s.fpc.nextFrame.get x
    let cad := s.tcu.cadence.get x
    (Ready s (.il x) q rest → s.fpc.plan = none → exec (.sealFrame (.il x)) s = .next (reply (.il x) q rest .noPlan [] s)) ∧
    (Ready s (.il x) q rest → s.fpc.plan ≠ none → (s.il.get x).openFrame = none →
      exec (.sealFrame (.il x)) s = .next (reply (.il x) q rest .notFilling [] s)) ∧
    (∀ k y p m, Ready s (.il x) q rest → s.fpc.plan ≠ none → (s.il.get x).openFrame = some k →
      s.fpc.slots[k]? = some (.filling y p m) → m < s.rows x →
      exec (.sealFrame (.il x)) s = .next (reply (.il x) q rest .incomplete [BitVec.ofNat 8 m] s)) ∧
    (∀ k y p m, Ready s (.il x) q rest → s.fpc.plan ≠ none → (s.il.get x).openFrame = some k →
      s.fpc.slots[k]? = some (.filling y p m) → s.rows x ≤ m →
      exec (.sealFrame (.il x)) s = .next (startAnalysis (reply (.il x) q rest .ok
        (beBytes 4 n.toNat ++ beBytes 4 now.toNat)
        (({ s with
          fpc := { s.fpc with
            slots := s.fpc.slots.set k (.queued { source := y, number := n, pts := p, arrival := now })
            nextFrame := s.fpc.nextFrame.set x (n + 1) }
          cd := { s.cd with queue := s.cd.queue ++ [k] }
          tcu := { s.tcu with cadence := s.tcu.cadence.set x { cad with
            timer := if cad.interval = 0 then none else some (now + BitVec.ofNat 32 (cad.interval * 10))
            repeats := 0, stalled := false } } } : State).modIl x (fun i => { i with openFrame := none }))))) ∧
    (Ready s (.il x) r rest → s.fpc.plan = none → exec (.abandonFrame (.il x)) s = .next (reply (.il x) r rest .noPlan [] s)) ∧
    (Ready s (.il x) r rest → s.fpc.plan ≠ none → (s.il.get x).openFrame = none →
      exec (.abandonFrame (.il x)) s = .next (reply (.il x) r rest .notFilling [] s)) ∧
    (∀ k, Ready s (.il x) r rest → s.fpc.plan ≠ none → (s.il.get x).openFrame = some k →
      exec (.abandonFrame (.il x)) s = .next (serveWaitList (reply (.il x) r rest .ok []
        (({ s with fpc := { s.fpc with slots := s.fpc.slots.set k .free } } : State).modIl x
          (fun i => { i with openFrame := none })))))


/-! ### Rendition lanes -/

/-- BIND (R17, R89, R91, R92, R93, R140): answered by the first failing check; a BIND that passes takes source and window, with the claim
mark set from the CURRENT frame unless the source stays the same, and first leaves the old source's owed sets when the source
changes. -/
def Obligations.BindMeaning : Prop :=
  ∀ (s : State) (l : RLane) (tag b0 xh xl yh yl wh wl hh hl d g : Byte) (rest : List Request),
    let r : Request := { kind := 17, tag := tag, payload := [b0, xh, xl, yh, yl, wh, wl, hh, hl, d, g] }
    let w := two wh wl
    let h := two hh hl
    let v : Window := { x0 := two xh xl, y0 := two yh yl, w := w, h := h, d := d.toNat, badge := decide (g ≠ 0) }
    let cost := 2 + (w * 8 * d.toNat * 3 / 2 + 255) / 256
    let valid := fun (W H : Nat) =>
      1 ≤ d.toNat ∧ d.toNat ≤ 4 ∧ v.x0 % 2 = 0 ∧ v.x0 + 2 ≤ W ∧ v.y0 % 2 = 0 ∧ v.y0 + 2 ≤ H ∧
      w % (8 * d.toNat) = 0 ∧ 8 * d.toNat ≤ w ∧ w ≤ 2048 ∧ h % (8 * d.toNat) = 0 ∧ 8 * d.toNat ≤ h ∧ h ≤ 1280
    let no := fun (c : AnswerCode) => Host.Outcome.next (φ := Fault) (ρ := Refusal) (reply (.rl l) r rest c [] s)
    let ok := reply (.rl l) r rest .ok (beBytes 2 (w / d.toNat) ++ beBytes 2 (h / d.toNat) ++ beBytes 1 (h / d.toNat / 8))
    let bound := fun (x : Src) (u : State) => u.modRl l (fun k =>
      { k with binding := some { source := x, window := v }, mark := (u.currentFrame x).map (fun f => f.number - 1) })
    Ready s (.rl l) r rest →
    (s.fpc.plan = none → exec (.bind (.rl l)) s = no .noPlan) ∧
    (s.fpc.plan ≠ none → source b0 = none → exec (.bind (.rl l)) s = no .badArg) ∧
    (∀ p x, s.fpc.plan = some p → source b0 = some x →
      let q := p.source.get x
      let fits := q.enabled = true ∧ valid (64 * q.cols) (64 * q.rows)
      let inCap := cost ≤ 2 * s.ms.schedule.allowance.get (.rl l) ∧
        ∀ n, s.ms.pendingSchedule = some n → cost ≤ 2 * n.allowance.get (.rl l)
      (¬ fits → exec (.bind (.rl l)) s = no .badArg) ∧
      (fits → ¬ inCap → exec (.bind (.rl l)) s = no .windowCost) ∧
      (fits → inCap → match (s.rl.get l).binding with
        | none => exec (.bind (.rl l)) s = .next (ok (bound x s))
        | some b =>
          if b.source = x then
            exec (.bind (.rl l)) s =
              .next (ok (s.modRl l (fun k => { k with binding := some { source := x, window := v } })))
          else if (s.rl.get l).holds ≠ [] then exec (.bind (.rl l)) s = no .busy
          else exec (.bind (.rl l)) s =
            .next (ok (bound x (leaveSource l b.source (s.modRl l (fun k => { k with binding := none, mark := none })))))))

/-- UNBIND (R17, R89, R94): NO_PLAN, NOT_BOUND and BUSY by its checks; otherwise binding and mark become absent, the lane leaves the
owed set of every slot of its source, the slots so changed are examined, and the request is answered OK. SUBSCRIBE (R103): the
lane's subscription mask becomes the six low bits given, whatever the pool and the binding, and the request is answered OK. -/
def Obligations.UnbindAndSubscribeMeaning : Prop :=
  (∀ (s : State) (l : RLane) (tag : Byte) (rest : List Request),
    let r : Request := { kind := 18, tag := tag, payload := [] }
    let no := fun (c : AnswerCode) => Host.Outcome.next (φ := Fault) (ρ := Refusal) (reply (.rl l) r rest c [] s)
    Ready s (.rl l) r rest →
    (s.fpc.plan = none → exec (.unbind (.rl l)) s = no .noPlan) ∧
    (s.fpc.plan ≠ none → (s.rl.get l).binding = none → exec (.unbind (.rl l)) s = no .notBound) ∧
    (∀ b, s.fpc.plan ≠ none → (s.rl.get l).binding = some b → (s.rl.get l).holds ≠ [] → exec (.unbind (.rl l)) s = no .busy) ∧
    (∀ b, s.fpc.plan ≠ none → (s.rl.get l).binding = some b → (s.rl.get l).holds = [] →
      exec (.unbind (.rl l)) s = .next (reply (.rl l) r rest .ok [] (settle s.fpc.slots { s with
        rl := s.rl.set l { s.rl.get l with binding := none, mark := none }
        fpc := { s.fpc with slots := s.fpc.slots.map (fun c => match c with
          | .analysed cur f v h owed => if f.source = b.source then .analysed cur f v h (owed.set l false) else c
          | c => c) } })))) ∧
  (∀ (s : State) (l : RLane) (tag m : Byte) (rest : List Request),
    let r : Request := { kind := 23, tag := tag, payload := [m] }
    Ready s (.rl l) r rest →
    exec (.subscribe (.rl l)) s =
      .next (reply (.rl l) r rest .ok [] (s.modRl l (fun k => { k with subs := m.extractLsb' 0 6 }))))

/-- A claim by lane l, bound by b, of the frame in slot k (R14, R15, R95): the hold, the hold list entry with its latched window,
the skipped count when a mark is present, the mark, the owed sets of the frames numbered at most n and their free checks, and the
answer with all its fields (R182). -/
def Obligations.ClaimEffects : Prop :=
  ∀ (s : State) (l : RLane) (b : Binding) (k : Nat) (cur : Bool) (f : SealedFrame) (v : Verdict) (h : Nat) (owed : PerRL Bool)
    (r : Request) (rest : List Request),
    s.fpc.slots[k]? = some (.analysed cur f v h owed) → f.source = b.source → (s.rl.get l).link.queue = r :: rest →
    let lane := s.rl.get l
    let own := fun (c : Slot) => match c with
      | .analysed cur' f' v' h' o' =>
        if f'.source = b.source ∧ (f.number - f'.number).toNat < 2147483648 then .analysed cur' f' v' h' (o'.set l false) else c
      | c => c
    takeFrame l b k s = reply (.rl l) r rest .ok
      (beBytes 1 k ++ beBytes 4 f.number.toNat ++ beBytes 1 (classNum v.cls) ++ beBytes 1 (flagsByte v.flags) ++
        beBytes 2 v.changed ++ beBytes 2 v.active ++ beBytes 6 f.pts.toNat ++ beBytes 2 (b.window.w / b.window.d) ++
        beBytes 2 (b.window.h / b.window.d) ++ beBytes 1 (b.window.h / b.window.d / 8))
      (settle s.fpc.slots { s with
        rl := s.rl.set l { lane with
          holds := lane.holds ++ [{ slot := k, frame := f.number, window := b.window }]
          skipped := match lane.mark with
            | some m => satAdd lane.skipped (f.number - m - 1).toNat
            | none => lane.skipped
          mark := some f.number
          pendingClaim := none }
        fpc := { s.fpc with slots := (s.fpc.slots.set k (.analysed cur f v (h + 1) owed)).map own } })

/-- CLAIM NEXT (R89, R96, R97): after the common checks it takes the lowest analysed frame of the bound source above the mark; with
none it waits until the claim-wait limit from now, or is answered NONE at once under a limit of 0. A CLAIM whose kind byte names no kind
is answered BAD_ARG, whichever claim row takes it (notes/assumptions/3.md). -/
def Obligations.ClaimNextMeaning : Prop :=
  ∀ (s : State) (l : RLane) (tag n3 n2 n1 n0 : Byte) (rest : List Request),
    let r : Request := { kind := 19, tag := tag, payload := [0, n3, n2, n1, n0] }
    let no := fun (c : AnswerCode) => Host.Outcome.next (φ := Fault) (ρ := Refusal) (reply (.rl l) r rest c [] s)
    let lane := s.rl.get l
    Ready s (.rl l) r rest →
    (s.fpc.plan = none → exec (.claimNext (.rl l)) s = no .noPlan) ∧
    (s.fpc.plan ≠ none → lane.binding = none → exec (.claimNext (.rl l)) s = no .notBound) ∧
    (∀ b, s.fpc.plan ≠ none → lane.binding = some b → 2 ≤ lane.holds.length →
      exec (.claimNext (.rl l)) s = no .holdLimit) ∧
    (∀ b, s.fpc.plan ≠ none → lane.binding = some b → lane.holds.length < 2 →
      let above := fun (c : Slot) => match c with
        | .analysed _ f _ _ _ => decide (f.source = b.source) && (match lane.mark with
          | some m => frameBelow m f.number
          | none => true)
        | _ => false
      (∀ c, c ∈ s.fpc.slots → above c = false) ∧
        exec (.claimNext (.rl l)) s = (if lane.claimLimit = 0 then no .noFrame
          else
            let wait : PendingClaim := { tag := tag, deadline := s.tcu.time + BitVec.ofNat 32 (1000 * lane.claimLimit) }
            .next (s.modRl l (fun k => { k with pendingClaim := some wait }))) ∨
      ∃ k, exec (.claimNext (.rl l)) s = .next (takeFrame l b k s) ∧
        (∃ c, s.fpc.slots[k]? = some c ∧ above c = true) ∧
        (Comparable above s.fpc.slots → Lowest above s.fpc.slots k)) ∧
    (∀ kind : Byte, 2 < kind.toNat → s.fpc.plan ≠ none →
      let bad : Request := { kind := 19, tag := tag, payload := [kind, n3, n2, n1, n0] }
      let u := s.modLink (.rl l) (fun k => { k with queue := bad :: rest })
      exec (.claimNext (.rl l)) u = .next (reply (.rl l) bad rest .badArg [] u) ∧
      exec (.claimLatest (.rl l)) u = .next (reply (.rl l) bad rest .badArg [] u) ∧
      exec (.claimNumber (.rl l)) u = .next (reply (.rl l) bad rest .badArg [] u))

/-- CLAIM LATEST (R89, R98): after the common checks it takes the source's CURRENT frame when it is above the mark or there is no
mark, and is otherwise answered NONE, changing nothing. -/
def Obligations.ClaimLatestMeaning : Prop :=
  ∀ (s : State) (l : RLane) (tag n3 n2 n1 n0 : Byte) (rest : List Request),
    let r : Request := { kind := 19, tag := tag, payload := [1, n3, n2, n1, n0] }
    let no := fun (c : AnswerCode) => Host.Outcome.next (φ := Fault) (ρ := Refusal) (reply (.rl l) r rest c [] s)
    let lane := s.rl.get l
    Ready s (.rl l) r rest →
    (s.fpc.plan = none → exec (.claimLatest (.rl l)) s = no .noPlan) ∧
    (s.fpc.plan ≠ none → lane.binding = none → exec (.claimLatest (.rl l)) s = no .notBound) ∧
    (∀ b, s.fpc.plan ≠ none → lane.binding = some b → 2 ≤ lane.holds.length →
      exec (.claimLatest (.rl l)) s = no .holdLimit) ∧
    (∀ b, s.fpc.plan ≠ none → lane.binding = some b → lane.holds.length < 2 →
      (s.fpc.current.get b.source = none → exec (.claimLatest (.rl l)) s = no .noFrame) ∧
      (∀ k f v h o, s.fpc.current.get b.source = some k → s.fpc.slots[k]? = some (.analysed true f v h o) →
        f.source = b.source →
        ((lane.mark = none ∨ ∃ m, lane.mark = some m ∧ m ≠ f.number ∧ (f.number - m).toNat < 2147483648) →
          exec (.claimLatest (.rl l)) s = .next (takeFrame l b k s)) ∧
        (∀ m, lane.mark = some m → (m = f.number ∨ 2147483648 ≤ (f.number - m).toNat) →
          exec (.claimLatest (.rl l)) s = no .noFrame)))

/-- CLAIM NUMBER n (R89, R99): after the common checks, ORDER at or below the mark, NOT_YET for a number not yet sealed or still
QUEUED or ANALYSING, the frame when it is CURRENT or STALE, and GONE otherwise. -/
def Obligations.ClaimNumberMeaning : Prop :=
  ∀ (s : State) (l : RLane) (tag n3 n2 n1 n0 : Byte) (rest : List Request),
    let r : Request := { kind := 19, tag := tag, payload := [2, n3, n2, n1, n0] }
    let no := fun (c : AnswerCode) => Host.Outcome.next (φ := Fault) (ρ := Refusal) (reply (.rl l) r rest c [] s)
    let lane := s.rl.get l
    let n : FrameNo := BitVec.ofNat 32 (four n3 n2 n1 n0)
    Ready s (.rl l) r rest →
    (s.fpc.plan = none → exec (.claimNumber (.rl l)) s = no .noPlan) ∧
    (s.fpc.plan ≠ none → lane.binding = none → exec (.claimNumber (.rl l)) s = no .notBound) ∧
    (∀ b, s.fpc.plan ≠ none → lane.binding = some b → 2 ≤ lane.holds.length →
      exec (.claimNumber (.rl l)) s = no .holdLimit) ∧
    (∀ b, s.fpc.plan ≠ none → lane.binding = some b → lane.holds.length < 2 →
      let passed := ∃ m, lane.mark = some m ∧ (m - n).toNat < 2147483648
      let sealed := frameBelow n (s.fpc.nextFrame.get b.source) = true
      (passed → exec (.claimNumber (.rl l)) s = no .order) ∧
      (¬ passed → ¬ sealed → exec (.claimNumber (.rl l)) s = no .notYet) ∧
      (∀ k c, ¬ passed → sealed → s.fpc.slots[k]? = some c → slotSource c = some b.source → slotFrame c = some n →
        (∀ j d, j < k → s.fpc.slots[j]? = some d → ¬ (slotSource d = some b.source ∧ slotFrame d = some n)) →
        exec (.claimNumber (.rl l)) s = match c with
          | .analysed _ _ _ _ _ => .next (takeFrame l b k s)
          | _ => no .notYet) ∧
      (¬ passed → sealed → (∀ c, c ∈ s.fpc.slots → ¬ (slotSource c = some b.source ∧ slotFrame c = some n)) →
        exec (.claimNumber (.rl l)) s = no .gone))

/-- RELEASE of slot k (R14, R16, R89, R100): NO_PLAN and NOT_HELD by its checks; otherwise the hold list entry leaves, the slot's hold
count falls by one, the slot is examined, and the request is answered OK. -/
def Obligations.ReleaseMeaning : Prop :=
  ∀ (s : State) (l : RLane) (tag k : Byte) (rest : List Request),
    let r : Request := { kind := 20, tag := tag, payload := [k] }
    let no := fun (c : AnswerCode) => Host.Outcome.next (φ := Fault) (ρ := Refusal) (reply (.rl l) r rest c [] s)
    let lane := s.rl.get l
    Ready s (.rl l) r rest →
    (s.fpc.plan = none → exec (.release (.rl l)) s = no .noPlan) ∧
    (s.fpc.plan ≠ none → (∀ e, e ∈ lane.holds → e.slot ≠ k.toNat) → exec (.release (.rl l)) s = no .notHeld) ∧
    (∀ e cur f v h o, s.fpc.plan ≠ none → e ∈ lane.holds → e.slot = k.toNat →
      s.fpc.slots[k.toNat]? = some (.analysed cur f v h o) →
      exec (.release (.rl l)) s = .next (reply (.rl l) r rest .ok [] (settle s.fpc.slots { s with
        rl := s.rl.set l { lane with holds := lane.holds.filter (fun e => decide (e.slot ≠ k.toNat)) }
        fpc := { s.fpc with slots := s.fpc.slots.set k.toNat (.analysed cur f v (h - 1) o) } })))

/-- FETCH_MASK (R72, R73, R89, R102): on a held slot, in FRAME mode the frame's own mask, in SINCE m mode the tiles of the source's
grid whose live last-changed number is present and above m; 80 bytes, tile t being bit t mod 8 of byte t div 8 (R179); nothing but
the answer changes. A mode byte that names no mode is answered BAD_ARG, whichever row takes it (notes/assumptions/3.md). -/
def Obligations.FetchMaskMeaning : Prop :=
  (∀ (m : TileSet) (t : Nat), t < 640 → (maskBytes m).length = 80 ∧ ((maskBytes m).getD (t / 8) 0).getLsbD (t % 8) = m.getLsbD t) ∧
  (∀ (s : State) (l : RLane) (tag k n3 n2 n1 n0 : Byte) (rest : List Request),
    let frame : Request := { kind := 22, tag := tag, payload := [k, 0, n3, n2, n1, n0] }
    let since : Request := { kind := 22, tag := tag, payload := [k, 1, n3, n2, n1, n0] }
    let lane := s.rl.get l
    let held := ∃ e, e ∈ lane.holds ∧ e.slot = k.toNat
    (Ready s (.rl l) frame rest →
      (s.fpc.plan = none → exec (.fetchMaskFrame (.rl l)) s = .next (reply (.rl l) frame rest .noPlan [] s)) ∧
      (s.fpc.plan ≠ none → ¬ held → exec (.fetchMaskFrame (.rl l)) s = .next (reply (.rl l) frame rest .notHeld [] s)) ∧
      (∀ cur f v h o, s.fpc.plan ≠ none → held → s.fpc.slots[k.toNat]? = some (.analysed cur f v h o) →
        exec (.fetchMaskFrame (.rl l)) s = .next (reply (.rl l) frame rest .ok (maskBytes v.mask) s))) ∧
    (Ready s (.rl l) since rest →
      (s.fpc.plan = none → exec (.fetchMaskSince (.rl l)) s = .next (reply (.rl l) since rest .noPlan [] s)) ∧
      (s.fpc.plan ≠ none → ¬ held → exec (.fetchMaskSince (.rl l)) s = .next (reply (.rl l) since rest .notHeld [] s)) ∧
      (∀ c x, s.fpc.plan ≠ none → held → s.fpc.slots[k.toNat]? = some c → slotSource c = some x →
        ∃ m : TileSet, exec (.fetchMaskSince (.rl l)) s = .next (reply (.rl l) since rest .ok (maskBytes m) s) ∧
          ∀ t, t < 640 → (m.getLsbD t = true ↔ t < s.cols x * s.rows x ∧
            ∃ rec' n, (s.cd.tiles.get x)[t]? = some rec' ∧ rec'.lastChanged = some n ∧
              frameBelow (BitVec.ofNat 32 (four n3 n2 n1 n0)) n = true)))) ∧
  (∀ (s : State) (l : RLane) (tag k mode n3 n2 n1 n0 : Byte) (rest : List Request) (e : Hold),
    let r : Request := { kind := 22, tag := tag, payload := [k, mode, n3, n2, n1, n0] }
    Ready s (.rl l) r rest → 1 < mode.toNat → s.fpc.plan ≠ none → e ∈ (s.rl.get l).holds → e.slot = k.toNat →
    exec (.fetchMaskFrame (.rl l)) s = .next (reply (.rl l) r rest .badArg [] s) ∧
    exec (.fetchMaskSince (.rl l)) s = .next (reply (.rl l) r rest .badArg [] s))

/-- FETCH of c bands from band f of held slot k (R89, R121, R122, R123): its checks, and then the context, its last band shortened to
the hold's bands, with the burst of band f requested at the latched window's cost when the band buffer is empty. -/
def Obligations.FetchMeaning : Prop :=
  ∀ (s : State) (l : RLane) (tag k f c : Byte) (rest : List Request),
    let r : Request := { kind := 21, tag := tag, payload := [k, f, c] }
    let no := fun (c : AnswerCode) => Host.Outcome.next (φ := Fault) (ρ := Refusal) (reply (.rl l) r rest c [] s)
    let lane := s.rl.get l
    Ready s (.rl l) r rest →
    (s.fpc.plan = none → exec (.fetch (.rl l)) s = no .noPlan) ∧
    (s.fpc.plan ≠ none → (∀ e, e ∈ lane.holds → e.slot ≠ k.toNat) → exec (.fetch (.rl l)) s = no .notHeld) ∧
    (∀ before e after, s.fpc.plan ≠ none → lane.holds = before ++ e :: after → (∀ d, d ∈ before → d.slot ≠ k.toNat) →
      e.slot = k.toNat →
      let bands := e.window.h / e.window.d / 8
      let ctx : FetchCtx :=
        { tag := tag, hold := e, nextBand := f.toNat, lastBand := min (f.toNat + c.toNat - 1) (bands - 1), served := 0,
          phase := .request }
      let u := s.modRl l (fun k => { k with fetch := some ctx })
      ((c = 0 ∨ bands ≤ f.toNat) → exec (.fetch (.rl l)) s = no .badArg) ∧
      (c ≠ 0 → f.toNat < bands → lane.bandBuffer = none →
        exec (.fetch (.rl l)) s =
          .next (placeRequest (.rl l) (2 + (e.window.w * 8 * e.window.d * 3 / 2 + 255) / 256) u)) ∧
      (c ≠ 0 → f.toNat < bands → lane.bandBuffer ≠ none → exec (.fetch (.rl l)) s = .next u))

/-! ### The Window Engine -/

/-- The end of a band's burst (R120, R121, R123, R125): the band in progress ends; the finished band of its lane's FETCH enters the
empty band buffer and waits behind the lane's other records, and the FETCH is in SEND; a burst whose FETCH has ended leaves
nothing; and the DRAM goes on to its next grant. That a burst may complete as soon
as what it has still to carry fits into the rest of its microsecond is the model's choice (notes/assumptions/6.md). -/
def Obligations.BandBurstMeaning : Prop :=
  ∀ (s : State) (b : Burst) (l : RLane), s.rstnLow = false → s.ms.dram = .burst b → b.job = .band l → b.remaining ≤ s.ms.room →
    (b.live = false → exec .bandBurstComplete s = .next (endBurst { s with band := none })) ∧
    (∀ p c x, b.live = true → s.band = some p → s.fpc.slots[p.slot]? = some c → slotSource c = some x →
      p.sums = List.replicate (12 * (p.window.w / p.window.d)) 0 →
      s.rowPlace p.slot (s.cols x) 0 + s.rows x * (s.cols x * 6144) ≤ 134217728 →
      let v : ReadOut :=
        { mem := s.mem, base := s.rowPlace p.slot (s.cols x) 0, cols := s.cols x, rows := s.rows x, attrs := p.viewAttrs,
          stencil := p.viewStencil, badge := p.window.badge }
      let done : Band :=
        { tag := p.tag, slot := p.slot, index := p.index, data := bandBytes p.window.d (bandSums v p.window p.index) }
      exec .bandBurstComplete s = .next (endBurst (({ s with band := none } : State).modRl l (fun r => { r with
        bandBuffer := some done
        fetch := r.fetch.map (fun c => { c with phase := .send })
        link := { r.link with outgoing := r.link.outgoing ++ [.bandData] } }))))

/-- The bytes of a band (R84, R85, R114 to R119): eight luma lines, then four U lines, then four V lines; each sample is the rounded
average of its d × d composed positions, every position clamped into the picture and then composed under the band's view. -/
def Obligations.BandData : Prop :=
  ∀ (v : ReadOut) (w : Window) (band : Nat), 1 ≤ v.cols → 1 ≤ v.rows → 1 ≤ w.d → (w.w / w.d) % 2 = 0 →
    let ow := w.w / w.d
    let out := bandBytes w.d (bandSums v w band)
    let mean := fun (S : Nat) => (S + w.d * w.d / 2) / (w.d * w.d)
    let luma := fun (x y : Nat) =>
      let x := min x (64 * v.cols - 1)
      let y := min y (64 * v.rows - 1)
      let a := v.attrs.getD (y / 64 * v.cols + x / 64) .none
      if a = .privacy then 16
      else if a = .badge ∧ v.badge = true then
        (if (v.stencil.lines.getD (y % 64) 0).getLsbD (x % 64) then v.stencil.fg.toNat else v.stencil.bg.toNat)
      else (readByte v.mem (v.base + y / 64 * (v.cols * 6144) + y % 64 * (64 * v.cols) + x)).toNat
    let chroma := fun (plane : Nat) (x y : Nat) =>
      let x := min x (32 * v.cols - 1)
      let y := min y (32 * v.rows - 1)
      let a := v.attrs.getD (y / 32 * v.cols + x / 32) .none
      if a = .privacy then 128
      else if a = .badge ∧ v.badge = true then 128
      else (readByte v.mem
        (v.base + y / 32 * (v.cols * 6144) + 4096 * v.cols + plane * (1024 * v.cols) + y % 32 * (32 * v.cols) + x)).toNat
    out.length = 12 * ow ∧
    (∀ i j, i < ow → j < 8 → out.getD (j * ow + i) 0 = BitVec.ofNat 8 (mean
      (total w.d (fun b => total w.d (fun a => luma (w.x0 + w.d * i + a) (w.y0 + w.d * (8 * band + j) + b)))))) ∧
    (∀ plane i j, plane < 2 → i < ow / 2 → j < 4 →
      out.getD (8 * ow + plane * (4 * (ow / 2)) + j * (ow / 2) + i) 0 = BitVec.ofNat 8 (mean
        (total w.d (fun b => total w.d (fun a =>
          chroma plane (w.x0 / 2 + w.d * i + a) (w.y0 / 2 + w.d * (4 * band + j) + b))))))

/-- The rounded average (R118): with n = d × d composed values that each lie in 0 to 255, the output value is
floor((S + floor(n / 2)) / n), and every byte of a band is such a value of its sum; S lies in 0 to 255n and the value in 0 to 255; it is
the true average to the nearest whole value, a half rounded up; a uniform block returns its own value at every d, so a block that
lies wholly in PRIVACY tiles is luma 16 and chroma 128. -/
def Obligations.RoundedAverage : Prop :=
  (∀ (d : Nat) (sums : List Nat),
    bandBytes d sums = sums.map (fun S => BitVec.ofNat 8 ((S + d * d / 2) / (d * d)))) ∧
  (∀ (d : Nat) (values : List Nat), 1 ≤ d → values.length = d * d → (∀ x, x ∈ values → x ≤ 255) →
    let n := d * d
    let v := (values.sum + n / 2) / n
    blockMean n values.sum = v ∧ v ≤ 255 ∧ values.sum ≤ 255 * n ∧
    (∀ u, (∀ x, x ∈ values → x = u) → v = u) ∧
    2 * values.sum < 2 * n * v + n ∧ 2 * n * v ≤ 2 * values.sum + n) ∧
  (blockMean 4 42 = 11 ∧ blockMean 4 41 = 10) ∧
  (∀ (v : ReadOut) (w : Window) (i j : Nat), 1 ≤ w.d →
    ((∀ a b, a < w.d → b < w.d → v.attrAt (min (w.y0 + w.d * j + b) (v.height - 1) / 64)
        (min (w.x0 + w.d * i + a) (v.width - 1) / 64) = .privacy) →
      blockMean (w.d * w.d) (lumaSum v w i j) = 16) ∧
    (∀ plane, (∀ a b, a < w.d → b < w.d → v.attrAt (2 * min (w.y0 / 2 + w.d * j + b) (v.height / 2 - 1) / 64)
        (2 * min (w.x0 / 2 + w.d * i + a) (v.width / 2 - 1) / 64) = .privacy) →
      blockMean (w.d * w.d) (chromaSum v w plane i j) = 128))

/-- TRANSMIT_RECORD (R90, R105, R121, R123, R124, R171): an UP lane's free transmitter sends the head of the notice queue, with the
OVERRUN flag and clearing the indicator, before the oldest waiting answer or band, but what a soft reset left waiting goes before any
notice (R112, R126, R178); a DOWN lane or one with nothing to send sends nothing. A band sent in full empties the buffer, and its FETCH is answered after the last band or requests the next one. That a sending may be taken
in two parts, and that the bytes last sent are kept, are the model's choices (notes/assumptions/4.md, notes/assumptions/15.md). -/
def Obligations.TransmitterOrder : Prop :=
  ∀ (s : State), s.rstnLow = false →
    (∀ lane, (s.link lane).up = false → (s.link lane).sending = none → exec (.transmitRecord lane .whole) s = .next s) ∧
    (∀ l n rest, (s.link (.rl l)).up = true → (s.link (.rl l)).sending = none → (s.link (.rl l)).ahead = 0 →
      (s.rl.get l).notices = n :: rest →
      exec (.transmitRecord (.rl l) .whole) s = .next (s.modRl l (fun r => { r with
        notices := rest, overrun := false
        link := { r.link with lastSent := recordBytes (.notice r.overrun n) } }))) ∧
    (∀ lane a rest, (s.link lane).up = true → (s.link lane).sending = none → (s.link lane).outgoing = .answer a :: rest →
      (∀ l, lane = .rl l → (s.rl.get l).notices = [] ∨ 0 < (s.link (.rl l)).ahead) →
      exec (.transmitRecord lane .whole) s = .next (s.modLink lane (fun k =>
        { k with outgoing := rest, ahead := k.ahead - 1, lastSent := recordBytes (.answer a) }))) ∧
    (∀ l b c rest, (s.link (.rl l)).up = true → (s.link (.rl l)).sending = none →
      ((s.rl.get l).notices = [] ∨ 0 < (s.link (.rl l)).ahead) →
      (s.link (.rl l)).outgoing = .bandData :: rest → (s.rl.get l).bandBuffer = some b → (s.rl.get l).fetch = some c →
      let u := s.modRl l (fun r => { r with
        bandBuffer := none, link := { r.link with outgoing := rest, ahead := r.link.ahead - 1, lastSent := recordBytes (.band b) } })
      exec (.transmitRecord (.rl l) .whole) s =
        if c.nextBand = c.lastBand then
          .next (answerHead (.rl l) .ok [BitVec.ofNat 8 (c.served + 1)] (u.modRl l (fun r => { r with fetch := none })))
        else
          let after : FetchCtx := { c with nextBand := c.nextBand + 1, served := c.served + 1, phase := .request }
          .next (placeRequest (.rl l) (2 + (c.hold.window.w * 8 * c.hold.window.d * 3 / 2 + 255) / 256)
            (u.modRl l (fun r => { r with fetch := some after })))) ∧
    (∀ lane, (s.link lane).sending = none → (s.link lane).outgoing = [] → (∀ l, lane = .rl l → (s.rl.get l).notices = []) →
      exec (.transmitRecord lane .whole) s = .next s) ∧
    (∀ lane, (s.link lane).sending = none → ∃ t, exec (.transmitRecord lane .start) s = .next t ∧
      exec (.transmitRecord lane .finish) t = exec (.transmitRecord lane .whole) s) ∧
    (∀ lane d, (s.link lane).sending = some d → exec (.transmitRecord lane .whole) s = .next s)

/-- Privacy (R82, R86): the band a burst delivers does not depend on any stored sample of a tile that is PRIVACY in the band's view:
two DRAMs that agree on every stored sample of the other tiles of the slot's picture give the same next state, apart from the DRAM
itself. -/
def Obligations.PrivateSamplesNeverRead : Prop :=
  ∀ (s t : State) (p : BandInProgress) (x : Src) (other : List Host.Cell),
    s.band = some p → slotSource (s.slot p.slot) = some x → 1 ≤ s.cols x → 1 ≤ s.rows x →
    let base := s.rowPlace p.slot (s.cols x) 0
    let shown := fun (i j : Nat) => p.viewAttrs.getD (j * s.cols x + i) .none ≠ .privacy
    (∀ i j, i < 64 * s.cols x → j < 64 * s.rows x → shown (i / 64) (j / 64) →
      lumaAt s.mem base (s.cols x) i j = lumaAt other base (s.cols x) i j) →
    (∀ plane i j, i < 32 * s.cols x → j < 32 * s.rows x → shown (i / 32) (j / 32) →
      chromaAt s.mem base (s.cols x) plane i j = chromaAt other base (s.cols x) plane i j) →
    exec .bandBurstComplete s = .next t →
    exec .bandBurstComplete { s with mem := other } = .next { t with mem := other }

/-! ### The Change Detector and the chapters -/

/-- The measuring of one tile (R54, R56 to R60, R62): a tile not excluded is measured; it is changed when it is RESEED, when it is
QUIET and its distance is above T_hi, or when it is ACTIVE and its distance is above T_lo; a changed tile takes the new means,
becomes ACTIVE with quiet run 0, takes the frame's number and is counted; an unchanged ACTIVE tile's quiet run grows and returns it
to QUIET at Q; an excluded tile keeps state, quiet run and signature; a marked tile takes the frame's number and sets its bit. -/
def Obligations.TileMeasurement : Prop :=
  (∀ a b : List Byte, a.length = 16 → b.length = 16 →
    tileDistance a b = total 16 (fun k =>
      ((a.getD k 0).toNat - (b.getD k 0).toNat) + ((b.getD k 0).toNat - (a.getD k 0).toNat)) ∧
    tileDistance a b ≤ 4080) ∧
  (∀ (means : List Byte) (t : Nat) (c : AnalysisCtx) (old : TileRec),
    let measured := c.excluded.getLsbD t = false
    let dist := tileDistance means old.signature
    let changed := measured ∧ (old.state = .reseed ∨ (old.state = .quiet ∧ c.settings.tHi < dist) ∨
      (old.state = .active ∧ c.settings.tLo < dist))
    let isMarked := c.marked.getLsbD t = true
    let out := tileStep means t c old
    (changed → out.1 = { state := .active, quietRun := 0, signature := means, lastChanged := some c.number }) ∧
    (¬ changed → measured → old.state = .active → c.settings.quiet ≤ old.quietRun + 1 →
      out.1 = { old with state := .quiet, quietRun := 0, lastChanged := if isMarked then some c.number else old.lastChanged }) ∧
    (¬ changed → measured → old.state = .active → old.quietRun + 1 < c.settings.quiet →
      out.1 = { old with quietRun := old.quietRun + 1, lastChanged := if isMarked then some c.number else old.lastChanged }) ∧
    (¬ changed → (¬ measured ∨ old.state = .quiet) →
      out.1 = { old with lastChanged := if isMarked then some c.number else old.lastChanged }) ∧
    (∃ d : Bool, (d = true ↔ changed) ∧
      out.2 = { c with
        changed := c.changed + (if d then 1 else 0)
        active := c.active + (if c.excluded.getLsbD t then 0 else 1)
        mask := if d || c.marked.getLsbD t then c.mask ||| BitVec.twoPow 640 t else c.mask
        attrSeen := c.attrSeen || c.marked.getLsbD t }))

/-- The end of a detector burst (R51, R52, R53, R137): the DRAM goes on to its next grant; a burst whose analysis has ended measures
nothing, with or without a newer analysis standing; otherwise every tile of the row is measured against its sixteen sub-block means, each record of the row becoming what its
own measuring gives and every other record staying, the context gathering the counts, mask and attribute-seen indicator of the row's
tiles from column 0 on, and then the next row's burst is requested or the analysis completes. That a burst may complete as soon
as what it has still to carry fits into the rest of its microsecond is the model's choice (notes/assumptions/6.md). -/
def Obligations.DetectorBurstMeaning : Prop :=
  (∀ (mem : List Host.Cell) (base cols r c k : Nat), k < 16 →
    (tileMeans mem base cols r c).length = 16 ∧
    (tileMeans mem base cols r c).getD k 0 = BitVec.ofNat 8 ((total 16 (fun j => total 16 (fun i =>
      lumaAt mem base cols (64 * c + 16 * (k % 4) + i) (64 * r + 16 * (k / 4) + j))) + 128) / 256)) ∧
  (∀ (s : State) (b : Burst) (c : AnalysisCtx),
    s.rstnLow = false → s.ms.dram = .burst b → b.job = .detector → b.remaining ≤ s.ms.room →
    (s.cd.ctx = none → exec .detectorRowBurstComplete s = .next (endBurst s)) ∧
    (s.cd.ctx = some c →
    (b.live = false → exec .detectorRowBurstComplete s = .next (endBurst s)) ∧
    (b.live = true → (s.cd.tiles.get c.source).length = 640 → (c.nextRow + 1) * c.cols ≤ 640 →
      s.rowPlace c.slot c.cols c.nextRow + 64 * c.cols * 64 ≤ 134217728 →
      ∃ (tiles : List TileRec) (d : AnalysisCtx),
        tiles.length = 640 ∧
        (∀ t, t < 640 → tiles[t]? = (s.cd.tiles.get c.source)[t]?.map (fun old =>
          if c.nextRow * c.cols ≤ t ∧ t < (c.nextRow + 1) * c.cols then
            (tileStep (tileMeans s.mem (s.rowPlace c.slot c.cols 0) c.cols c.nextRow (t - c.nextRow * c.cols)) t c old).1
          else old)) ∧
        d = { (List.range c.cols).foldl (fun e i =>
          let t := c.nextRow * c.cols + i
          (tileStep (tileMeans s.mem (s.rowPlace c.slot c.cols 0) c.cols c.nextRow i) t e
            ((s.cd.tiles.get c.source).getD t TileRec.reset)).2) c with nextRow := c.nextRow + 1 } ∧
        d = { c with
          nextRow := c.nextRow + 1, changed := d.changed, active := d.active, mask := d.mask, attrSeen := d.attrSeen } ∧
        c.changed ≤ d.changed ∧ d.changed - c.changed ≤ d.active - c.active ∧ c.active ≤ d.active ∧
        d.active ≤ c.active + c.cols ∧
        (∀ t, c.mask.getLsbD t = true → d.mask.getLsbD t = true) ∧
        (∀ t, d.mask.getLsbD t = true → c.mask.getLsbD t = true ∨ (c.nextRow * c.cols ≤ t ∧ t < (c.nextRow + 1) * c.cols)) ∧
        (let u := endBurst s
        let v : State := { u with cd := { u.cd with tiles := u.cd.tiles.set c.source tiles, ctx := some d } }
        exec .detectorRowBurstComplete s =
          .next (if c.nextRow + 1 < c.rows then placeRequest .det (2 + 16 * c.cols) v else completeAnalysis d v)))))

/-- The start of an analysis (R48, R49, R50, R61): a BUSY detector or an empty queue starts nothing; otherwise the head of the queue
becomes ANALYSING, the snapshots are taken, the source's later-write indicators are cleared, and the first row's burst is
requested. -/
def Obligations.AnalysisStart : Prop :=
  (∀ s : State, (s.cd.ctx ≠ none ∨ s.cd.queue = []) → startAnalysis s = s) ∧
  (∀ (s : State) (k : Nat) (rest : List Nat) (f : SealedFrame),
    s.cd.ctx = none → s.cd.queue = k :: rest → s.fpc.slots[k]? = some (.queued f) →
    let cols := s.cols f.source
    let rows := s.rows f.source
    ∃ c : AnalysisCtx,
      (∀ t, t < 640 → c.excluded.getLsbD t =
        (decide (t < cols * rows) && decide ((s.attr.entries.get f.source).getD t .none ≠ .none))) ∧
      (∀ t, t < 640 → c.marked.getLsbD t = (decide (t < cols * rows) && (s.cd.marks.get f.source).getLsbD t)) ∧
      c = { slot := k, source := f.source, number := f.number, arrival := f.arrival, cols := cols, rows := rows,
            settings := s.cd.settings.get f.source, excluded := c.excluded, marked := c.marked, nextRow := 0, changed := 0,
            active := 0, mask := 0, attrSeen := false } ∧
      startAnalysis s = placeRequest .det (2 + 16 * cols) { s with
        fpc := { s.fpc with slots := s.fpc.slots.set k (.analysing f) }
        cd := { s.cd with queue := rest, ctx := some c, laterWrites := s.cd.laterWrites.set f.source 0 } })

/-- The verdict of an analysis (R64, R65, R66, R68, R69, R70): FIRST from the source's first flag; SCENE when FIRST or by the P test,
otherwise HOLD for an empty mask and PATCH for another; an eligible cue promotes a PATCH or SCENE frame and every eligible cue is
consumed; on a HOLD frame every eligible cue ages by one, and those that reach the window expire and are counted. That a cue whose stamp
equals the arrival stamp is eligible is the model's choice (notes/assumptions/30.md). -/
def Obligations.VerdictOfAnalysis : Prop :=
  ∀ (c : AnalysisCtx) (first : Bool) (window : Nat) (cues : List CueRec),
    let eligible := fun (q : CueRec) => decide (q.target = c.source ∧ (c.arrival - q.stamp).toNat < 2147483648)
    let scene := first = true ∨ (1 ≤ c.active ∧ c.settings.percent * c.active ≤ c.changed * 100)
    let base : FrameClass := if scene then .scene else if c.mask = 0 then .hold else .patch
    let flags := fun (cue : Bool) => ({ first := first, cue := cue, chapter := false, attr := c.attrSeen } : FrameFlags)
    let verdict := fun (cls : FrameClass) (cue : Bool) =>
      ({ cls := cls, flags := flags cue, changed := c.changed, active := c.active, mask := c.mask } : Verdict)
    verdictOf c first window cues =
      if cues.any eligible = false then (verdict base false, cues, 0)
      else if base = .hold then
        (verdict .hold false,
          cues.filterMap (fun q =>
            if eligible q then if window ≤ q.waited + 1 then none else some { q with waited := q.waited + 1 } else some q),
          cues.countP (fun q => eligible q && decide (window ≤ q.waited + 1)))
      else (verdict .scene true, cues.filter (fun q => !eligible q), 0)

/-- The completion of an analysis (R11, R61, R64, R71, R107, R159), in its order: the cues, the misses, the first flag and the marks of
the snapshot that no later write renewed; the slot CURRENT with its verdict and owed set and the old CURRENT slot STALE; the chapter;
READY to every lane bound to the source; SCENE and CHAPTER; the pending claims; the free check of the superseded slot; and the next
analysis. The pending claims (R11 step 6, R12): each lane bound to the source whose claim waits takes the CURRENT frame, in lane order; its
claim no longer waits, its mark is the frame's number and its hold list has the new entry; of the other lanes none of this changes. -/
def Obligations.AnalysisCompletion : Prop :=
  (∀ (s : State) (c : AnalysisCtx) (f : SealedFrame) (old : Option (Nat × SealedFrame × Verdict × Nat × PerRL Bool)),
    s.fpc.slots[c.slot]? = some (.analysing f) → f.source = c.source →
    (match old with
      | none => s.fpc.current.get c.source = none
      | some (j, f', v', h', o') =>
        s.fpc.current.get c.source = some j ∧ s.fpc.slots[j]? = some (.analysed true f' v' h' o')) →
    let x := c.source
    let out := verdictOf c (s.cd.first.get x) s.tcu.cueSettings.window s.tcu.cues
    let why := chapterDecision (s.clr.chapters.get x) out.1.cls out.1.flags f.number
    let v : Verdict := { out.1 with flags := { out.1.flags with chapter := why.isSome } }
    let owed : PerRL Bool := ⟨s.boundTo .r0 x, s.boundTo .r1 x, s.boundTo .r2 x, s.boundTo .r3 x⟩
    let count := s.mlu.counters.get x
    let ready := fun (l : RLane) => if owed.get l then noticed (.ready x f.number v.cls v.flags) (s.rl.get l) else s.rl.get l
    let stale := match old with
      | none => s.fpc.slots
      | some (j, f', v', h', o') => s.fpc.slots.set j (.analysed false f' v' h' o')
    let s1 : State := { s with
      tcu := { s.tcu with cues := out.2.1 }
      mlu := { s.mlu with counters := s.mlu.counters.set x { count with cueMisses := satAdd count.cueMisses out.2.2 } }
      cd := { s.cd with
        first := s.cd.first.set x false
        marks := s.cd.marks.set x (s.cd.marks.get x &&& ~~~(c.marked &&& ~~~(s.cd.laterWrites.get x))) }
      fpc := { s.fpc with
        slots := stale.set c.slot (.analysed true f v 0 owed)
        current := s.fpc.current.set x (some c.slot) }
      clr := match why with
        | some r => recordChapter s.clr f v.changed v.active r
        | none => s.clr
      rl := ⟨ready .r0, ready .r1, ready .r2, ready .r3⟩ }
    let s2 := if v.cls = .scene then fireEvent { kind := .scene, source := some x, frame := some f.number } s1 else s1
    let s3 := if why.isSome then fireEvent { kind := .chapter, source := some x, frame := some f.number } s2 else s2
    let s4 := servePendingClaims x c.slot s3
    let s5 := match old with
      | none => s4
      | some (j, f', v', h', o') => examineSlot (.analysed true f' v' h' o') j s4
    completeAnalysis c s = startAnalysis { s5 with cd := { s5.cd with ctx := none } }) ∧
  (∀ (x : Src) (k : Nat) (s : State),
    servePendingClaims x k s = [RLane.r0, .r1, .r2, .r3].foldl (fun u l => match (u.rl.get l).binding with
      | some b => if b.source = x ∧ (u.rl.get l).pendingClaim ≠ none then takeFrame l b k u else u
      | none => u) s) ∧
  (∀ (x : Src) (k : Nat) (s : State) (f : SealedFrame) (v : Verdict) (h : Nat) (o : PerRL Bool) (l : RLane),
    s.fpc.slots[k]? = some (.analysed true f v h o) → f.source = x →
    let old := s.rl.get l
    let new := (servePendingClaims x k s).rl.get l
    let served := ∃ b, old.binding = some b ∧ b.source = x ∧ old.pendingClaim ≠ none
    new.binding = old.binding ∧
    (∀ b, old.binding = some b → b.source = x → old.pendingClaim ≠ none →
      new.pendingClaim = none ∧ new.mark = some f.number ∧
        new.holds = old.holds ++ [{ slot := k, frame := f.number, window := b.window }]) ∧
    (¬ served → new.pendingClaim = old.pendingClaim ∧ new.mark = old.mark ∧ new.holds = old.holds))

/-- The chapter decision and its record (R158, R159, R161): FIRST before CUE before SCENE with the gap; the last-chapter frame becomes
the frame's number; a record with the next sequence number is appended to a log of fewer than 64 records, and an overflow is
counted on a full one. -/
def Obligations.ChapterDecisionAndRecord : Prop :=
  (∀ (u : ChapterUnit) (cls : FrameClass) (flags : FrameFlags) (n : FrameNo),
    let eligible := u.enabled = true ∧ cls = .scene
    let apart := match u.last with
      | none => True
      | some m => u.gap ≤ (n - m).toNat
    (¬ eligible → chapterDecision u cls flags n = none) ∧
    (eligible → flags.first = true → chapterDecision u cls flags n = some .first) ∧
    (eligible → flags.first = false → flags.cue = true → chapterDecision u cls flags n = some .cue) ∧
    (eligible → flags.first = false → flags.cue = false → apart → chapterDecision u cls flags n = some .scene) ∧
    (eligible → flags.first = false → flags.cue = false → ¬ apart → chapterDecision u cls flags n = none)) ∧
  (∀ (c : Router) (f : SealedFrame) (changed active : Nat) (why : ChapterReason),
    let unit := c.chapters.get f.source
    let seen := c.chapters.set f.source { unit with last := some f.number }
    let entry : ChapterRec :=
      { seq := c.nextSeq, source := f.source, frame := f.number, pts := f.pts, arrival := f.arrival, changed := changed,
        active := active, reason := why }
    (c.log.length < 64 → recordChapter c f changed active why =
      { c with chapters := seen, log := c.log ++ [entry], nextSeq := c.nextSeq + 1 }) ∧
    (64 ≤ c.log.length → recordChapter c f changed active why =
      { c with chapters := seen, overflows := satAdd c.overflows 1 }))

/-! ### The Memory Scheduler -/

/-- A grant choice (R133, R135, R136): made only while the DRAM is IDLE and no refresh is due; among the waiting requests that their
balances cover it grants ingest by the ingest pointer, then the detector, then the priority lane, then the other rendition lanes
round robin; the grant charges the cost, removes the request, starts the burst and moves the pointer that chose; a band's burst takes
its attribute view and the FETCH to READ (R82, R120, R123). A request placed waits with its cost, and a grant choice is made at once on
an IDLE DRAM with no refresh due; at the end of a burst or a refresh what it had still to carry leaves the microsecond's room, a due
refresh of 500 units begins, and otherwise the DRAM is IDLE and a grant choice is made (R129, R130, R133, R137). The room is the model's
measure of R129's 64 units per microsecond (notes/assumptions/6.md). -/
def Obligations.GrantOrderAndCharge : Prop :=
  (∀ s : State, (s.ms.dram ≠ .idle ∨ s.ms.refreshDue = true) → makeGrant s = s) ∧
  (∀ s : State, s.ms.dram = .idle → s.ms.refreshDue = false →
    let ready := fun (r : Requester) => match s.ms.waiting.get r with
      | some c => decide (c ≤ s.ms.balance.get r)
      | none => false
    let p := s.ms.ingestPtr
    let q : Src := if p = .s0 then .s1 else .s0
    let l0 := s.ms.roundRobin
    let robin := [l0, nextRL l0, nextRL (nextRL l0), nextRL (nextRL (nextRL l0))]
    let others := robin.filter (fun l => decide (s.ms.schedule.priority ≠ some l))
    let job : Requester → Job := fun r => match r with
      | .il x =>
        match (s.il.get x).rowBuffer, (s.il.get x).openFrame with
        | some b, some k => .ingest x (s.rowPlace k (s.cols x) b.row) b.data
        | _, _ => .ingest x 0 []
      | .det => .detector
      | .rl l => .band l
    let begun : RLane → Option BandInProgress := fun l => (s.rl.get l).fetch.map (fun c =>
      { lane := l, tag := c.tag, slot := c.hold.slot, index := c.nextBand, window := c.hold.window,
        viewAttrs := match slotSource (s.slot c.hold.slot) with
          | some x => s.attr.entries.get x
          | none => []
        viewStencil := s.attr.stencil, sums := List.replicate (c.hold.window.w / c.hold.window.d * 12) 0 })
    let order : List Requester := [.il p, .il q, .det] ++
      (match s.ms.schedule.priority with
        | some l => [.rl l]
        | none => []) ++ others.map .rl
    (order.find? ready = none → makeGrant s = s) ∧
    (∀ r c, order.find? ready = some r → s.ms.waiting.get r = some c →
      let granted : State := { s with ms := { s.ms with
        balance := s.ms.balance.set r (s.ms.balance.get r - c)
        waiting := s.ms.waiting.set r none
        dram := .burst { job := job r, cost := c, remaining := c, live := true }
        ingestPtr := match r with
          | .il x => if x = .s0 then .s1 else .s0
          | _ => p
        roundRobin := match r with
          | .rl l => if s.ms.schedule.priority = some l then s.ms.roundRobin else nextRL l
          | _ => s.ms.roundRobin } }
      makeGrant s = match r with
        | .rl l => ({ granted with band := begun l } : State).modRl l (fun k =>
            { k with fetch := k.fetch.map (fun c => { c with phase := .read }) })
        | _ => granted)) ∧
  (∀ (s : State) (r : Requester) (c : Nat),
    let placed : State := { s with ms := { s.ms with waiting := s.ms.waiting.set r (some c) } }
    placed.ms.waiting.get r = some c ∧ (∀ q, q ≠ r → placed.ms.waiting.get q = s.ms.waiting.get q) ∧
    placeRequest r c s = (if s.ms.dram = .idle ∧ s.ms.refreshDue = false then makeGrant placed else placed)) ∧
  (∀ s : State,
    let left := match s.ms.dram with
      | .idle => 0
      | .burst b => b.remaining
      | .refresh n => n
    (s.ms.refreshDue = true → endBurst s = { s with ms := { s.ms with
      dram := .refresh 500, refreshDue := false, room := s.ms.room - left } }) ∧
    (s.ms.refreshDue = false → endBurst s = makeGrant { s with ms := { s.ms with dram := .idle, room := s.ms.room - left } }))

/-- PERIOD_EVENT and REFRESH_COMPLETE (R133, R134, R140, R145): at its deadline a period event makes the refresh of 500 units due and
begins it at once on an IDLE DRAM, and the next one is due 1,000 µs after this one; before the deadline nothing happens. At the end
of the refresh a pending schedule, even one taken since the period event (the model's choice, notes/assumptions/28.md), is applied with
the balances clipped to its caps, every balance gains its allowance up to the cap,
and a grant choice is made. That a refresh may complete as soon as what it has still to carry fits into the rest of
its microsecond, and that an event that is not due does
nothing, are the model's choices (notes/assumptions/6.md, notes/assumptions/11.md). -/
def Obligations.PeriodAndRefresh : Prop :=
  ∀ s : State, s.rstnLow = false →
    ((s.tcu.time - s.tcu.nextPeriod).toNat < 2147483648 →
      exec .periodEvent s = .next { s with
        tcu := { s.tcu with nextPeriod := s.tcu.nextPeriod + 1000 }
        ms := if s.ms.dram = .idle then { s.ms with dram := .refresh 500, refreshDue := false }
          else { s.ms with refreshDue := true } }) ∧
    (2147483648 ≤ (s.tcu.time - s.tcu.nextPeriod).toNat → exec .periodEvent s = .next s) ∧
    (∀ n, s.ms.dram = .refresh n → n ≤ s.ms.room → s.ms.refreshDue = false →
      ∃ balance : PerReq Nat,
        (∀ r, balance.get r = match s.ms.pendingSchedule with
          | none => min (s.ms.balance.get r + s.ms.schedule.allowance.get r) (2 * s.ms.schedule.allowance.get r)
          | some c => min (min (s.ms.balance.get r) (2 * c.allowance.get r) + c.allowance.get r) (2 * c.allowance.get r)) ∧
        exec .refreshComplete s = .next (makeGrant { s with ms := { s.ms with
          dram := .idle
          room := s.ms.room - n
          balance := balance
          schedule := s.ms.pendingSchedule.getD s.ms.schedule
          pendingSchedule := none } }))

/-! ### The Timebase and Cadence Unit -/

/-- CADENCE_EXPIRY (R108, R147, R148): at its deadline, with a CURRENT frame, the repeat count and the repeats counter grow, each lane
bound to the source gets a REPEAT notice with the new count, and at K expiries STALLED is set and fires once; with none, nothing of
that; and in both cases the next deadline is the interval after the one reached. Without a deadline reached, nothing changes (the
model's choice, notes/assumptions/11.md). -/
def Obligations.CadenceExpiryMeaning : Prop :=
  ∀ (s : State) (x : Src), s.rstnLow = false →
    let cad := s.tcu.cadence.get x
    (cad.timer = none → exec (.cadenceExpiry x) s = .next s) ∧
    (∀ t, cad.timer = some t → 2147483648 ≤ (s.tcu.time - t).toNat → exec (.cadenceExpiry x) s = .next s) ∧
    (∀ t, cad.timer = some t → (s.tcu.time - t).toNat < 2147483648 →
      let next := some (t + BitVec.ofNat 32 (cad.interval * 10))
      (s.currentFrame x = none →
        exec (.cadenceExpiry x) s = .next (s.modCadence x (fun c => { c with timer := next }))) ∧
      (∀ f, s.currentFrame x = some f →
        let count := satAdd cad.repeats 1
        let stall := cad.stallLimit ≤ count.toNat ∧ cad.stalled = false
        let rep := fun (l : RLane) =>
          if s.boundTo l x then noticed (.repeated x f.number count) (s.rl.get l) else s.rl.get l
        let sums := s.mlu.counters.get x
        let after : Cadence := { cad with repeats := count, stalled := cad.stalled || decide stall, timer := next }
        let u : State := { s with
          tcu := { s.tcu with cadence := s.tcu.cadence.set x after }
          mlu := { s.mlu with counters := s.mlu.counters.set x { sums with repeats := satAdd sums.repeats 1 } }
          rl := ⟨rep .r0, rep .r1, rep .r2, rep .r3⟩ }
        exec (.cadenceExpiry x) s =
          .next (if stall then fireEvent { kind := .stalled, source := some x, frame := some f.number } u else u)))


/-- CUE_EDGE, SPACING_HOLD_END, CUE_AGE_EXPIRY and MARKER_PULSE_END (R151, R152, R154, R168): an accepted edge sets the spacing hold, and
its record joins a FIFO of fewer than 8 and fires CUE, or is dropped and counted; an edge that is not accepted leaves no trace; a
reached spacing hold ends; the first record that has reached its age leaves as a cue miss; a line whose end stamp is reached goes LOW.
OPEN_WAIT_DEADLINE and CLAIM_WAIT_DEADLINE (R24, R33, R97, R144): once reached, a waiting open leaves the slot wait list, is answered
POOL_FULL and counted as a drop, and a waiting claim is answered NONE; before the deadline, and with nothing waiting, nothing changes.
That one aged record leaves at a time, the first, and that an event that is not due does nothing, are the model's choices
(notes/assumptions/12.md, notes/assumptions/11.md). -/
def Obligations.CuesPulsesAndDeadlines : Prop :=
  (∀ s : State, s.rstnLow = false →
    (∀ e : CueEdge,
      let q := s.tcu.cueSettings
      let accepted := q.enabled = true ∧ s.tcu.spacingHold = none ∧
        (q.edge = .both ∨ (q.edge = .rising ∧ e = .rising) ∨ (q.edge = .falling ∧ e = .falling))
      let hold := if q.spacing = 0 then none else some (s.tcu.time + BitVec.ofNat 32 (q.spacing * 1000))
      let cue : CueRec := { stamp := s.tcu.time, target := q.target, waited := 0 }
      exec (.cueEdge e) s =
        if ¬ accepted then .next s
        else if s.tcu.cues.length < 8 then
          .next (fireEvent { kind := .cue, source := some q.target, frame := none }
            { s with tcu := { s.tcu with spacingHold := hold, cues := s.tcu.cues ++ [cue] } })
        else .next { s with tcu := { s.tcu with spacingHold := hold, cueOverruns := satAdd s.tcu.cueOverruns 1 } }) ∧
    exec .spacingHoldEnd s = .next { s with tcu := { s.tcu with
      spacingHold := match s.tcu.spacingHold with
        | some t => if (s.tcu.time - t).toNat < 2147483648 then none else some t
        | none => none } } ∧
    (let aged := fun (q : CueRec) => decide ((s.tcu.time - (q.stamp + 1073741824)).toNat < 2147483648)
    (s.tcu.cues.any aged = false → exec .cueAgeExpiry s = .next s) ∧
    (∀ before q after, s.tcu.cues = before ++ q :: after → before.any aged = false → aged q = true →
      exec .cueAgeExpiry s = .next (({ s with tcu := { s.tcu with cues := before ++ after } } : State).modCounters q.target
        (fun c => { c with cueMisses := satAdd c.cueMisses 1 })))) ∧
    (let ended := fun (m : MarkerLine) => { m with
      high := match m.high with
        | some t => if (s.tcu.time - t).toNat < 2147483648 then none else some t
        | none => none }
    exec (.markerPulseEnd .m0) s = .next { s with clr := { s.clr with m0 := ended s.clr.m0 } } ∧
    exec (.markerPulseEnd .m1) s = .next { s with clr := { s.clr with m1 := ended s.clr.m1 } })) ∧
  (∀ s : State, s.rstnLow = false →
    (∀ x p r rest, (s.il.get x).pendingOpen = some p → (s.il.get x).link.queue = r :: rest →
      (s.tcu.time - p.deadline).toNat < 2147483648 →
      exec (.openWaitDeadline x) s = .next (reply (.il x) r rest .poolFull []
        ((({ s with fpc := { s.fpc with waitList := s.fpc.waitList.filter (fun e => decide (e.source ≠ x)) } } : State).modIl x
          (fun i => { i with pendingOpen := none })).modCounters x (fun c => { c with drops := satAdd c.drops 1 })))) ∧
    (∀ x p, (s.il.get x).pendingOpen = some p → 2147483648 ≤ (s.tcu.time - p.deadline).toNat →
      exec (.openWaitDeadline x) s = .next s) ∧
    (∀ x, (s.il.get x).pendingOpen = none → exec (.openWaitDeadline x) s = .next s) ∧
    (∀ l p r rest, (s.rl.get l).pendingClaim = some p → (s.rl.get l).link.queue = r :: rest →
      (s.tcu.time - p.deadline).toNat < 2147483648 →
      exec (.claimWaitDeadline l) s = .next (reply (.rl l) r rest .noFrame []
        (s.modRl l (fun i => { i with pendingClaim := none })))) ∧
    (∀ l p, (s.rl.get l).pendingClaim = some p → 2147483648 ≤ (s.tcu.time - p.deadline).toNat →
      exec (.claimWaitDeadline l) s = .next s) ∧
    (∀ l, (s.rl.get l).pendingClaim = none → exec (.claimWaitDeadline l) s = .next s))

/-! ### Management commands -/

/-- SET_PLAN (R1 to R4, R55, R140, R156, R157): BAD_ARG for an invalid plan, then BUSY for a pool that is not idle; a valid plan taken
on an idle pool makes S FREE slots, restarts the numbering and the detector, empties the cue FIFO, clears repeat counts and STALLED,
unbinds every lane and clears the last-chapter frames, and keeps everything else. -/
def Obligations.SetPlanMeaning : Prop :=
  ∀ (s : State) (n e0 c0 r0 q0 e1 c1 r1 q1 : Byte), s.rstnLow = false →
    let payload := [n, e0, c0, r0, q0, e1, c1, r1, q1]
    let part := fun (e c r q : Byte) => ({ enabled := decide (e ≠ 0), cols := c.toNat, rows := r.toNat,
                                           quota := if e ≠ 0 then q.toNat else 0 } : SourcePlan)
    let plan : Plan := { slots := n.toNat, source := ⟨part e0 c0 r0 q0, part e1 c1 r1 q1⟩ }
    let inRange := fun (p : SourcePlan) => p.enabled = true →
      1 ≤ p.cols ∧ p.cols ≤ 32 ∧ 1 ≤ p.rows ∧ p.rows ≤ 20 ∧ 3 ≤ p.quota ∧ p.quota ≤ n.toNat
    let within := fun (a : PerReq Nat) => ∀ x, (plan.source.get x).enabled = true →
      2 + 24 * (plan.source.get x).cols ≤ 2 * a.get (.il x) ∧ 2 + 16 * (plan.source.get x).cols ≤ 2 * a.get .det
    let valid := 6 ≤ n.toNat ∧ n.toNat ≤ 32 ∧ (e0 ≠ 0 ∨ e1 ≠ 0) ∧ (∀ x, inRange (plan.source.get x)) ∧
      within s.ms.schedule.allowance ∧ ∀ c, s.ms.pendingSchedule = some c → within c.allowance
    let idle := (∀ c, c ∈ s.fpc.slots → c = .free) ∧ s.fpc.waitList = [] ∧ (∀ l, (s.rl.get l).pendingClaim = none) ∧
      ∀ lane, (s.link lane).queue = []
    (¬ valid → exec (.setPlan payload) s = .next (executed 1 payload .badArg [] s)) ∧
    (valid → ¬ idle → exec (.setPlan payload) s = .next (executed 1 payload .busy [] s)) ∧
    (valid → idle → exec (.setPlan payload) s = .next (executed 1 payload .ok [] { s with
      fpc := { s.fpc with
        plan := some plan, slots := List.replicate n.toNat .free, current := ⟨none, none⟩, nextFrame := ⟨0, 0⟩ }
      rl := s.rl.map (fun r => { r with binding := none, mark := none, holds := [] })
      cd := { Detector.reset with settings := s.cd.settings }
      tcu := { s.tcu with
        cues := [], spacingHold := none, cadence := s.tcu.cadence.map (fun c => { c with repeats := 0, stalled := false }) }
      clr := { s.clr with chapters := s.clr.chapters.map (fun u => { u with last := none }) } }))

/-- SET_DETECT, SET_CUE, SET_CADENCE and SET_CHAPTERS (R67, R150, R155, R157, R189): a source or code that names nothing is answered BAD_ARG
and changes nothing; otherwise the settings given replace the old ones, brought into range, and nothing else changes but, for
SET_CADENCE, the timer restarted from now. -/
def Obligations.SourceSettingsCommands : Prop :=
  ∀ s : State, s.rstnLow = false →
    (∀ b h1 h0 l1 l0 q p : Byte,
      let payload := [b, h1, h0, l1, l0, q, p]
      let hi := min (two h1 h0) 4080
      let taken : DetectSettings :=
        { tHi := hi, tLo := min (two l1 l0) hi, quiet := if q = 0 then 1 else min q.toNat 15,
          percent := if p = 0 then 1 else min p.toNat 100 }
      exec (.setDetect payload) s = match source b with
        | none => .next (executed 2 payload .badArg [] s)
        | some x => .next (executed 2 payload .ok [] { s with cd := { s.cd with settings := s.cd.settings.set x taken } })) ∧
    (∀ e g b sp w : Byte,
      let payload := [e, g, b, sp, w]
      let edge : Option EdgeSetting :=
        if g = 0 then some .rising else if g = 1 then some .falling else if g = 2 then some .both else none
      exec (.setCue payload) s = match edge, source b with
        | some k, some x => .next (executed 5 payload .ok [] { s with tcu := { s.tcu with cueSettings :=
            { enabled := decide (e ≠ 0), edge := k, target := x, spacing := sp.toNat,
              window := if w = 0 then 1 else min w.toNat 15 } } })
        | _, _ => .next (executed 5 payload .badArg [] s)) ∧
    (∀ b i1 i0 k : Byte,
      let payload := [b, i1, i0, k]
      let interval := two i1 i0
      exec (.setCadence payload) s = match source b with
        | none => .next (executed 6 payload .badArg [] s)
        | some x => .next (executed 6 payload .ok [] (s.modCadence x (fun c => { c with
            interval := interval
            stallLimit := if k = 0 then 1 else k.toNat
            timer := if interval = 0 then none else some (s.tcu.time + BitVec.ofNat 32 (interval * 10)) })))) ∧
    (∀ b e g1 g0 : Byte,
      let payload := [b, e, g1, g0]
      exec (.setChapters payload) s = match source b with
        | none => .next (executed 7 payload .badArg [] s)
        | some x =>
          let unit := s.clr.chapters.get x
          .next (executed 7 payload .ok [] { s with clr := { s.clr with
            chapters := s.clr.chapters.set x { unit with enabled := decide (e ≠ 0), gap := two g1 g0 } } }))

/-- SET_SCHEDULE, SET_ROUTE and SET_LANE_LIMITS (R25, R93, R139, R140, R168, R169, R190): a schedule that fails a check, and a route with a
generator code or a source that names nothing, are answered BAD_ARG and change nothing; a schedule that passes becomes the pending
one; a route replaces generators, management subscription and lines, a width of 0 being 1 and a disabled line going LOW; the limits
replace all seven. -/
def Obligations.PartSettingsCommands : Prop :=
  ∀ s : State, s.rstnLow = false →
    (∀ a1 a0 b1 b0 d1 d0 f1 f0 g1 g0 h1 h0 i1 i0 code : Byte,
      let payload := [a1, a0, b1, b0, d1, d0, f1, f0, g1, g0, h1, h0, i1, i0, code]
      let a : PerReq Nat := ⟨⟨two a1 a0, two b1 b0⟩, two d1 d0, ⟨two f1 f0, two g1 g0, two h1 h0, two i1 i0⟩⟩
      let priority : Option (Option RLane) :=
        if code = 0 then some (some .r0) else if code = 1 then some (some .r1) else if code = 2 then some (some .r2)
        else if code = 3 then some (some .r3) else if code = 255 then some none else none
      let passes :=
        two a1 a0 + two b1 b0 + two d1 d0 + two f1 f0 + two g1 g0 + two h1 h0 + two i1 i0 ≤ 12000 ∧
        (∀ p x, s.fpc.plan = some p → (p.source.get x).enabled = true →
          2 + 24 * (p.source.get x).cols ≤ 2 * a.get (.il x) ∧ 2 + 16 * (p.source.get x).cols ≤ 2 * a.get .det) ∧
        (∀ l w, ((∃ b, (s.rl.get l).binding = some b ∧ b.window = w) ∨ ∃ e, e ∈ (s.rl.get l).holds ∧ e.window = w) →
          2 + (w.w * 8 * w.d * 3 / 2 + 255) / 256 ≤ 2 * a.get (.rl l))
      (priority = none ∨ ¬ passes → exec (.setSchedule payload) s = .next (executed 3 payload .badArg [] s)) ∧
      (∀ p, priority = some p → passes → exec (.setSchedule payload) s = .next (executed 3 payload .ok []
        { s with ms := { s.ms with pendingSchedule := some { allowance := a, priority := p } } }))) ∧
    (∀ g0 x0 g1 x1 g2 x2 g3 x3 g4 x4 g5 x5 m e0 w0 e1 w1 : Byte,
      let payload := [g0, x0, g1, x1, g2, x2, g3, x3, g4, x4, g5, x5, m, e0, w0, e1, w1]
      let gen := fun (g b : Byte) =>
        if g = 0 then (source b).map Generator.scene else if g = 1 then (source b).map Generator.chapter
        else if g = 2 then (source b).map Generator.stalled else if g = 3 then some Generator.cue
        else if g = 4 then (source b).map Generator.evict else if g = 5 then some Generator.poolLow
        else if g = 255 then some Generator.off else none
      let line := fun (e w : Byte) (old : MarkerLine) => ({ enabled := decide (e ≠ 0), width := if w = 0 then 1 else w.toNat,
                                                             high := if e ≠ 0 then old.high else none } : MarkerLine)
      exec (.setRoute payload) s = match gen g0 x0, gen g1 x1, gen g2 x2, gen g3 x3, gen g4 x4, gen g5 x5 with
        | some k0, some k1, some k2, some k3, some k4, some k5 => .next (executed 4 payload .ok [] { s with clr := { s.clr with
            generators := [k0, k1, k2, k3, k4, k5]
            mgmtSubs := m.extractLsb' 0 6
            m0 := line e0 w0 s.clr.m0
            m1 := line e1 w1 s.clr.m1 } })
        | _, _, _, _, _, _ => .next (executed 4 payload .badArg [] s)) ∧
    (∀ i0 i1 k0 k1 k2 k3 low : Byte,
      let payload := [i0, i1, k0, k1, k2, k3, low]
      let il := fun (x : Src) (n : Byte) => ({ s.il.get x with openLimit := n.toNat } : IngestLane)
      let rl := fun (l : RLane) (n : Byte) => ({ s.rl.get l with claimLimit := n.toNat } : RenditionLane)
      exec (.setLaneLimits payload) s = .next (executed 8 payload .ok [] { s with
        il := ⟨il .s0 i0, il .s1 i1⟩
        rl := ⟨rl .r0 k0, rl .r1 k1, rl .r2 k2, rl .r3 k3⟩
        fpc := { s.fpc with poolLow := if 32 < low.toNat then 32 else low.toNat } }))

/-- ATTR_WRITE (R61, R76, R78, R79): a source or value code that names nothing is answered BAD_ARG and changes nothing; otherwise the run,
shortened to the grid bound, takes the value; each entry whose value changes, in the grid of an enabled source, has its mark and
later-write indicator set, and is reseeded when the new value is NONE; nothing else changes, and the number written is reported. -/
def Obligations.AttrWriteMeaning : Prop :=
  ∀ (s : State) (b f1 f0 c1 c0 k : Byte), s.rstnLow = false →
    (∀ x, (s.attr.entries.get x).length = 640 ∧ (s.cd.tiles.get x).length = 640) →
    let payload := [b, f1, f0, c1, c0, k]
    let value : Option Attr := if k = 0 then some .none else if k = 1 then some .privacy else if k = 2 then some .badge
      else if k = 3 then some .ignore else none
    ((source b = none ∨ value = none) → exec (.attrWrite payload) s = .next (executed 16 payload .badArg [] s)) ∧
    (∀ x v, source b = some x → value = some v →
      let bound := if s.enabled x = true then s.cols x * s.rows x else 640
      let first := two f1 f0
      let n := min (two c1 c0) (bound - first)
      let old := fun (i : Nat) => (s.attr.entries.get x).getD i .none
      let written := fun (i : Nat) => decide (first ≤ i ∧ i < first + n)
      let changed := fun (i : Nat) => written i && s.enabled x && decide (old i ≠ v)
      ∃ (entries : List Attr) (tiles : List TileRec) (marks laterWrites : TileSet),
        exec (.attrWrite payload) s = .next (executed 16 payload .ok (beBytes 2 n) { s with
          attr := { s.attr with entries := s.attr.entries.set x entries }
          cd := { s.cd with
            tiles := s.cd.tiles.set x tiles, marks := s.cd.marks.set x marks
            laterWrites := s.cd.laterWrites.set x laterWrites } }) ∧
        entries.length = 640 ∧ tiles.length = 640 ∧
        ∀ i, i < 640 →
          entries.getD i .none = (if written i then v else old i) ∧
          marks.getLsbD i = ((s.cd.marks.get x).getLsbD i || changed i) ∧
          laterWrites.getLsbD i = ((s.cd.laterWrites.get x).getLsbD i || changed i) ∧
          tiles[i]? = (s.cd.tiles.get x)[i]?.map (fun t =>
            if changed i = true ∧ v = .none then { t with state := .reseed, quietRun := 0 } else t))

/-- BADGE_WRITE (R61, R77, R80, R190): at most 16 lines, shortened to end at line 63, take their bits, and fg and bg are set; when a bit or
a value changed, every BADGE tile in the grid of each enabled source has its mark and later-write indicator set; nothing else
changes, and the number of lines written is reported. -/
def Obligations.BadgeWriteMeaning : Prop :=
  ∀ (s : State) (first count fg bg : Byte) (data : List Byte), s.rstnLow = false → s.attr.stencil.lines.length = 64 →
    data.length = 8 * min count.toNat 16 →
    let payload := first :: count :: fg :: bg :: data
    let n := min (min count.toNat 16) (64 - first.toNat)
    ∃ (lines : List (BitVec 64)) (marks laterWrites : PerSource TileSet),
      let stencil : Stencil := { lines := lines, fg := fg, bg := bg }
      exec (.badgeWrite payload) s = .next (executed 18 payload .ok [BitVec.ofNat 8 n] { s with
        attr := { s.attr with stencil := stencil }, cd := { s.cd with marks := marks, laterWrites := laterWrites } }) ∧
      lines.length = 64 ∧
      (∀ i b, i < 64 → b < 64 → (lines.getD i 0).getLsbD b =
        if first.toNat ≤ i ∧ i < first.toNat + n then (data.getD (8 * (i - first.toNat) + b / 8) 0).getLsbD (b % 8)
        else (s.attr.stencil.lines.getD i 0).getLsbD b) ∧
      (∀ x t, t < 640 →
        let hit := decide (stencil ≠ s.attr.stencil) && s.enabled x && decide (t < s.cols x * s.rows x) &&
          decide ((s.attr.entries.get x).getD t .none = .badge)
        (marks.get x).getLsbD t = ((s.cd.marks.get x).getLsbD t || hit) ∧
        (laterWrites.get x).getLsbD t = ((s.cd.laterWrites.get x).getLsbD t || hit))

/-- READ_STATUS, READ_COUNTERS, ATTR_READ, READ_RESET_CAUSE and CLEAR_RESET_CAUSE (R29, R81, R191, R192, R194): each returns its bytes in
the layout of its rule and changes nothing, except that the clear option sets every counter to 0 and CLEAR_RESET_CAUSE clears
the flags named before it reports. -/
def Obligations.ReadOutCommands : Prop :=
  ∀ s : State, s.rstnLow = false →
    (∃ data : List Byte, exec (.readStatus []) s = .next (executed 32 [] .ok data s) ∧
      data.length = 13 + 8 * s.fpc.slots.length ∧
      data.getD 1 0 = BitVec.ofNat 8 s.fpc.slots.length ∧
      (s.fpc.plan = none → data.getD 0 0 = 0) ∧
      (s.fpc.plan ≠ none → data.getD 0 0 = if poolIdle s then 1 else 2) ∧
      (∀ lane, (data.getD 2 0).getLsbD (laneNum lane) = (s.link lane).up) ∧
      (∀ x, (data.drop (3 + 5 * srcNum x)).take 5 =
        (let current := (s.currentFrame x).map SealedFrame.number
        BitVec.ofNat 8 ((if current.isSome then 1 else 0) + (if (s.tcu.cadence.get x).stalled then 2 else 0)) ::
          beBytes 4 ((current.map BitVec.toNat).getD 0))) ∧
      (∀ i c, s.fpc.slots[i]? = some c → (data.drop (13 + 8 * i)).take 8 =
        [BitVec.ofNat 8 i, BitVec.ofNat 8 (slotStateNum (slotState c)),
          match slotSource c with
          | some x => BitVec.ofNat 8 (srcNum x)
          | none => 255] ++ beBytes 4 (((slotFrame c).map BitVec.toNat).getD 0) ++
        [BitVec.ofNat 8 (slotHolds c + 16 * owedBits (slotOwed c))])) ∧
    (∀ flag : Byte, ∃ t : State,
      exec (.readCounters [flag]) s = .next (executed 33 [flag] .ok
        (((([Src.s0, .s1].flatMap (fun x =>
            let c := s.mlu.counters.get x
            [c.drops, c.evictions, c.repeats, c.cueMisses])) ++
          [RLane.r0, .r1, .r2, .r3].flatMap (fun l =>
            let r := s.rl.get l
            [r.skipped, r.lost, r.noticeOverruns])) ++
          [Lane.il .s0, .il .s1, .rl .r0, .rl .r1, .rl .r2, .rl .r3].map (fun lane => (s.link lane).errors) ++
          [s.tcu.cueOverruns, s.clr.overflows, s.clr.markerOverruns]).flatMap (fun c => beBytes 2 c.toNat)) t) ∧
      (flag = 0 → t = s) ∧
      (flag ≠ 0 → t = { s with
        il := s.il.map (fun r => { r with link := { r.link with errors := 0 } })
        rl := s.rl.map (fun r => { r with
          link := { r.link with errors := 0 }, skipped := 0, lost := 0, noticeOverruns := 0 })
        tcu := { s.tcu with cueOverruns := 0 }
        clr := { s.clr with overflows := 0, markerOverruns := 0 }
        mlu := { s.mlu with counters :=
          ⟨{ drops := 0, evictions := 0, repeats := 0, cueMisses := 0 },
            { drops := 0, evictions := 0, repeats := 0, cueMisses := 0 }⟩ } })) ∧
    (∀ b f1 f0 c1 c0 : Byte,
      let payload := [b, f1, f0, c1, c0]
      exec (.attrRead payload) s = match source b with
        | none => .next (executed 17 payload .badArg [] s)
        | some x =>
          let bound := if s.enabled x = true then s.cols x * s.rows x else 640
          let n := min (two c1 c0) (bound - two f1 f0)
          .next (executed 17 payload .ok (beBytes 2 n ++ (List.range n).map (fun i =>
            match (s.attr.entries.get x).getD (two f1 f0 + i) .none with
            | .none => 0
            | .privacy => 1
            | .badge => 2
            | .ignore => 3)) s)) ∧
    exec (.readResetCause []) s = .next (executed 36 [] .ok (beBytes 2 s.mlu.cause.toNat) s) ∧
    (∀ m1 m0 : Byte,
      let cause := s.mlu.cause &&& ~~~(BitVec.ofNat 9 (two m1 m0))
      exec (.clearResetCause [m1, m0]) s = .next (executed 37 [m1, m0] .ok (beBytes 2 cause.toNat)
        { s with mlu := { s.mlu with cause := cause } }))

/-- POP_CHAPTERS and READ_MARKERS (R162, R166, R167, R184, R185, R193): the lesser of the count, 16 and what there is leaves from the head,
oldest first, and is returned in its layout with the number left; the first marker entry returned carries the overrun indicator, which
that read clears; ATTN is asserted exactly while the marker queue holds an entry; nothing else changes. -/
def Obligations.PopChaptersAndReadMarkers : Prop :=
  ∀ (s : State) (count : Byte), s.rstnLow = false →
    (let n := min (min count.toNat 16) s.clr.log.length
    exec (.popChapters [count]) s = .next (executed 34 [count] .ok
      (BitVec.ofNat 8 n :: BitVec.ofNat 8 (s.clr.log.length - n) :: (s.clr.log.take n).flatMap (fun r =>
        beBytes 2 r.seq.toNat ++ [BitVec.ofNat 8 (srcNum r.source), BitVec.ofNat 8 (reasonNum r.reason)] ++
        beBytes 4 r.frame.toNat ++ beBytes 6 r.pts.toNat ++ beBytes 4 r.arrival.toNat ++ beBytes 2 r.changed ++
        beBytes 2 r.active))
      { s with clr := { s.clr with log := s.clr.log.drop n } })) ∧
    (let n := min (min count.toNat 16) s.clr.markers.length
    let entry := fun (overrun : Bool) (m : MarkerEntry) =>
      [3, BitVec.ofNat 8 ((if overrun then 1 else 0) + (if m.event.frame.isSome then 2 else 0)),
        match m.event.source with
        | some x => BitVec.ofNat 8 (srcNum x)
        | none => 255] ++
      beBytes 4 ((m.event.frame.map BitVec.toNat).getD 0) ++
      [0, 0, 0, 0, BitVec.ofNat 8 m.channel, BitVec.ofNat 8 (eventNum m.event.kind)]
    exec (.readMarkers [count]) s = .next (executed 35 [count] .ok
      (BitVec.ofNat 8 n :: BitVec.ofNat 8 (s.clr.markers.length - n) ::
        ((s.clr.markers.take n).zipIdx.flatMap (fun p =>
          entry (if p.2 = 0 then s.clr.markerOverrun else false) p.1)))
      { s with clr := { s.clr with
        markers := s.clr.markers.drop n
        markerOverrun := if n = 0 then s.clr.markerOverrun else false } })) ∧
    (attnAsserted s = true ↔ s.clr.markers ≠ [])

/-- Frames that are not executed (R187, R188, R190): a management command whose payload length is not its row's, and a frame whose code is
in no row, are answered BAD_ARG and change nothing but the frame's own buffer, state and result; a frame cut off before it is complete
executes nothing and leaves the buffer empty.
The frame's edges and bytes (R186, R187, R188): when CSN falls the buffer is emptied and the frame is RECEIVING; a byte then joins the
buffer, and the one that completes a command has it executed as its row does; after the execution the bytes clocked out are two of 0,
the result code, the result data and 0 from there on, and the frame is EXECUTED until the second is out and RESULT then; when CSN rises
the frame is IDLE and its result is lost, with the command's effects standing; while the frame is IDLE, with CSN high or with a CSN that
fell before RSTN's release, no byte is taken until CSN has risen and fallen. The row of a command is CSN's rise, its fall and the bytes
of the command; the row of the frame cut off is the fall, the bytes of an incomplete command and the rise. That these moves are carried
by the one row, and that a command's row brings its own edges, are the model's choices (notes/assumptions/8.md). -/
def Obligations.FramesAndTheirBytes : Prop :=
  (∀ (s : State) (p : List Byte), s.rstnLow = false →
    let refusedAs := fun (code : Byte) => Host.Outcome.next (φ := Fault) (ρ := Refusal) (executed code p .badArg [] s)
    (p.length ≠ 9 → exec (.setPlan p) s = refusedAs 1) ∧ (p.length ≠ 7 → exec (.setDetect p) s = refusedAs 2) ∧
    (p.length ≠ 15 → exec (.setSchedule p) s = refusedAs 3) ∧ (p.length ≠ 17 → exec (.setRoute p) s = refusedAs 4) ∧
    (p.length ≠ 5 → exec (.setCue p) s = refusedAs 5) ∧ (p.length ≠ 4 → exec (.setCadence p) s = refusedAs 6) ∧
    (p.length ≠ 4 → exec (.setChapters p) s = refusedAs 7) ∧ (p.length ≠ 7 → exec (.setLaneLimits p) s = refusedAs 8) ∧
    (p.length ≠ 6 → exec (.attrWrite p) s = refusedAs 16) ∧ (p.length ≠ 5 → exec (.attrRead p) s = refusedAs 17) ∧
    (p.length ≠ 4 + 8 * min (p.getD 1 0).toNat 16 → exec (.badgeWrite p) s = refusedAs 18) ∧
    (p.length ≠ 0 → exec (.readStatus p) s = refusedAs 32) ∧ (p.length ≠ 1 → exec (.readCounters p) s = refusedAs 33) ∧
    (p.length ≠ 1 → exec (.popChapters p) s = refusedAs 34) ∧ (p.length ≠ 1 → exec (.readMarkers p) s = refusedAs 35) ∧
    (p.length ≠ 0 → exec (.readResetCause p) s = refusedAs 36) ∧ (p.length ≠ 2 → exec (.clearResetCause p) s = refusedAs 37) ∧
    (p.length ≠ 0 → exec (.softReset p) s = refusedAs 48) ∧ (p.length ≠ 1 → exec (.laneReset p) s = refusedAs 49) ∧
    (∀ code : Byte, code.toNat ∉ [1, 2, 3, 4, 5, 6, 7, 8, 16, 17, 18, 32, 33, 34, 35, 36, 37, 48, 49] →
      exec (.unknownCommand code p) s = refusedAs code) ∧
    ((∀ code len rest, p = code :: len :: rest → rest.length < len.toNat) →
      exec (.managementFrameCutOff (.whole p)) s =
        .next { s with mlu := { s.mlu with csnLow := false, staging := [], frame := .idle, result := none, sent := [] } })) ∧
  (∀ s : State, s.rstnLow = false →
    let m := s.mlu
    (m.csnLow = false → exec (.managementFrameCutOff .fall) s =
      .next { s with mlu := { m with csnLow := true, staging := [], frame := .receiving, result := none, sent := [] } }) ∧
    (m.csnLow = true → exec (.managementFrameCutOff .fall) s = .next s) ∧
    (∀ b, m.frame = .idle → exec (.managementFrameCutOff (.byte b)) s = .next s) ∧
    (∀ b, m.frame = .receiving → frameComplete (m.staging ++ [b]) = false →
      exec (.managementFrameCutOff (.byte b)) s = .next { s with mlu := { m with staging := m.staging ++ [b] } }) ∧
    (∀ b c len code payload, m.frame = .receiving → m.csnLow = true → m.result = none → m.sent = [] →
      m.staging ++ [b] = code :: len :: payload → payload.length = len.toNat → frameCommand (m.staging ++ [b]) = some c →
      exec (.managementFrameCutOff (.byte b)) s = exec c s) ∧
    (∀ code len payload, payload.length = len.toNat → ∃ c, frameCommand (code :: len :: payload) = some c ∧
      c = match code.toNat with
        | 1 => .setPlan payload
        | 2 => .setDetect payload
        | 3 => .setSchedule payload
        | 4 => .setRoute payload
        | 5 => .setCue payload
        | 6 => .setCadence payload
        | 7 => .setChapters payload
        | 8 => .setLaneLimits payload
        | 16 => .attrWrite payload
        | 17 => .attrRead payload
        | 18 => .badgeWrite payload
        | 32 => .readStatus payload
        | 33 => .readCounters payload
        | 34 => .popChapters payload
        | 35 => .readMarkers payload
        | 36 => .readResetCause payload
        | 37 => .clearResetCause payload
        | 48 => .softReset payload
        | 49 => .laneReset payload
        | _ => .unknownCommand code payload) ∧
    (m.csnLow = true → exec (.managementFrameCutOff .rise) s = .next { s with mlu := { m with
      csnLow := false, frame := .idle, result := none, staging := if m.frame = .receiving then [] else m.staging } }) ∧
    (m.csnLow = false → exec (.managementFrameCutOff .rise) s = .next s)) ∧
  (let clock := fun (bs : List Byte) (o : Host.Outcome State Fault Refusal) => bs.foldl (fun o b => match o with
    | .next t => exec (.managementFrameCutOff (.byte b)) t
    | o => o) o
  (∀ (s : State) (code : Byte) (payload : List Byte) (res : AnswerCode) (data bs : List Byte), s.rstnLow = false →
    let u := executed code payload res data s
    clock bs (.next u) = .next { u with mlu := { u.mlu with
      sent := (List.range bs.length).map (fun j =>
        if j < 2 then 0 else if j = 2 then BitVec.ofNat 8 (answerNum res) else data.getD (j - 3) 0)
      frame := if bs.length < 2 then .executed else .result } }) ∧
  (∀ (s : State) (c : Instr) (code len : Byte) (payload : List Byte), s.rstnLow = false → payload.length = len.toNat →
    frameCommand (code :: len :: payload) = some c → ∃ t u, exec (.managementFrameCutOff .rise) s = .next t ∧
      exec (.managementFrameCutOff .fall) t = .next u ∧ clock (code :: len :: payload) (.next u) = exec c s) ∧
  (∀ (s t : State) (staged : List Byte), s.rstnLow = false → s.mlu.csnLow = false → frameComplete staged = false →
    exec (.managementFrameCutOff .fall) s = .next t →
    ∃ u, clock staged (.next t) = .next u ∧ u.mlu.staging = staged ∧ u.mlu.frame = .receiving ∧
      exec (.managementFrameCutOff .rise) u = exec (.managementFrameCutOff (.whole staged)) s))

/-! ### Laws that every step keeps -/

/-- Every step keeps the shape of the part's stores: the canonical form of the DRAM's cells, the sizes of the tables, the depths of the
log, the queues and the FIFO, and the consecutive sequence numbers of the chapter log (R55, R75, R77, R104, R152, R160, R161, R163,
R166, R175). -/
def Obligations.StepKeepsStores : Prop :=
  ∀ s t : State, MemoryLaw s → TableLaw s → DepthLaw s → SequenceLaw s → step s = .next t →
    MemoryLaw t ∧ TableLaw t ∧ DepthLaw t ∧ SequenceLaw t

/-- Every step keeps every requester's credit balance within 0 to twice its allowance (R132), and keeps the sum of the allowances, every
row cost of the plan and every lane's largest band cost within the caps in force and those of the pending schedule (R2, R93, R139,
R140). -/
def Obligations.StepKeepsCreditsAndCaps : Prop :=
  (∀ s t : State, CreditLaw s → step s = .next t → CreditLaw t) ∧
  (∀ s t : State, CapLaw s → step s = .next t → CapLaw t)

/-- Every step keeps the life of the slots in order: FILLING slots are the lanes' open frames, CURRENT slots the CURRENT pointers, the
ANALYSING slot the analysis under way, QUEUED slots the analysis queue, and the waiting opens the wait list (R6, R7, R22, R30, R47, R48);
so each source has at most one FILLING and one CURRENT slot, and the part at most one ANALYSING slot. -/
def Obligations.StepKeepsSlotLife : Prop :=
  (∀ s t : State, LifeLaw s → step s = .next t → LifeLaw t) ∧
  (∀ s : State, LifeLaw s → s.rstnLow = false →
    (∀ (x : Src) (j k : Nat) (p : Pts) (n : Nat) (q : Pts) (m : Nat), s.fpc.slots[j]? = some (.filling x p n) → s.fpc.slots[k]? = some (.filling x q m) → j = k) ∧
    (∀ (j k : Nat) (f : SealedFrame) (v : Verdict) (h : Nat) (o : PerRL Bool) (f' : SealedFrame) (v' : Verdict) (h' : Nat)
      (o' : PerRL Bool), s.fpc.slots[j]? = some (.analysed true f v h o) →
      s.fpc.slots[k]? = some (.analysed true f' v' h' o') → f.source = f'.source → j = k) ∧
    (∀ (j k : Nat) (f g : SealedFrame), s.fpc.slots[j]? = some (.analysing f) → s.fpc.slots[k]? = some (.analysing g) → j = k))

/-- Every step keeps the number of non-FREE slots of each source within its quota (R19), and keeps the frames' verdicts consistent: a HOLD
frame has an empty mask, a frame with FIRST, CUE or CHAPTER is SCENE, and no frame counts more changed tiles than active ones (R63,
R65, R69, R159); it keeps the plan valid, with as many slots as it says (R1, R2, R26); and it keeps the analysis under way that of its
ANALYSING frame in its source's geometry, and every active count within the grid and within 640 (R47, R50, R63). -/
def Obligations.StepKeepsQuotasAndVerdicts : Prop :=
  (∀ s t : State, QuotaLaw s → step s = .next t → QuotaLaw t) ∧
  (∀ s t : State, FrameLaw s → step s = .next t → FrameLaw t) ∧
  (∀ s t : State, PlanLaw s → step s = .next t → PlanLaw t) ∧
  (∀ s t : State, SafeState s → step s = .next t → AnalysisLaw t)

/-- Every step keeps the holds and owed sets: each slot's hold count is the number of lanes whose hold list names it, at most 4; a hold list
has at most two entries, of distinct slots of the lane's bound source, each naming its slot's frame, none newer than the claim mark (R14,
R95); a STALE slot that nothing holds is owed to some lane, and only lanes bound to a frame's source are owed it (R13, R17, R20). The
frame numbers in the pool must lie within R6's wrap-safe order (Recent). -/
def Obligations.StepKeepsHolds : Prop :=
  (∀ s t : State, SafeState s → Recent s → step s = .next t → HoldLaw t ∧ OwedLaw t) ∧
  (∀ (s : State) (k : Nat), HoldLaw s → slotHolds (s.slot k) ≤ 4)

/-- Every step keeps the order of the frame numbers, as long as they lie within R6's wrap-safe order (Recent): the numbers of a source's
slots are distinct, every STALE frame's number is below the CURRENT frame's, which is below that of every QUEUED or ANALYSING frame, and
the analysis queue serves seals in order (R6, R9, R11); and so the frames of a source that any test picks out can be compared. -/
def Obligations.StepKeepsNumbers : Prop :=
  (∀ s t : State, SafeState s → Recent s → step s = .next t → NumberLaw t) ∧
  (∀ (s : State) (x : Src) (j k : Nat) (c d : Slot) (n m : FrameNo), NumberLaw s → Recent s →
    s.fpc.slots[j]? = some c → s.fpc.slots[k]? = some d → slotSource c = some x → slotSource d = some x →
    slotFrame c = some n → slotFrame d = some m →
    (j ≠ k → n ≠ m) ∧
    (slotState c = .stale → slotState d = .current → frameBelow n m = true) ∧
    (slotState c = .current → (slotState d = .queued ∨ slotState d = .analysing) → frameBelow n m = true)) ∧
  (∀ (s : State) (x : Src) (p : Slot → Bool), Recent s → (∀ c, p c = true → slotSource c = some x) → Comparable p s.fpc.slots)

/-- Every step keeps each burst, waiting or carried, that of what its requester is doing: an ingest lane's buffered row, the next row of the
analysis, the next band of a FETCH with the one band-in-progress record; an idle DRAM has no refresh due and no request its balance
covers left waiting; and every ingest burst lies within the DRAM (R120 to R123, R129, R130, R137, R138). It keeps DOWN lanes without
requests, records or bindings, and the management frame IDLE while CSN is high (R43, R111, R171, R178, R187). From a state that has the
laws every command completes: no burst reaches past the 128 MiB. -/
def Obligations.StepKeepsBursts : Prop :=
  (∀ s t : State, SafeState s → step s = .next t → BurstLaw t ∧ LinkLaw t) ∧
  (∀ (s : State) (c : Instr), SafeState s → ∃ t, exec c s = .next t)

/-- A hold keeps its frame (R13, R14, R101): while a slot's hold count is not 0, no command but a release, a reset, or what resets a lane
frees it, evicts it, changes its frame or its verdict, or lowers its hold count; and no command at all writes a stored sample of a slot
whose frame has been sealed, held or not. -/
def Obligations.HoldKeepsTheFrame : Prop :=
  (∀ (c : Instr) (s t : State) (k : Nat) (cur : Bool) (f : SealedFrame) (v : Verdict) (h : Nat) (o : PerRL Bool),
    LifeLaw s → exec c s = .next t → s.fpc.slots[k]? = some (.analysed cur f v (h + 1) o) →
    (match performed c s with
      | .powerOnReset => True
      | .boardReset => True
      | .softReset _ => True
      | .laneReset _ => True
      | .linkLoss _ => True
      | .recordReceived _ _ => True
      | .release _ => True
      | _ => ∃ cur' h' o', t.fpc.slots[k]? = some (.analysed cur' f v h' o') ∧ h + 1 ≤ h')) ∧
  (∀ (c : Instr) (s t : State) (p : Plan) (k a : Nat) (d : Slot),
    SafeState s → exec c s = .next t → s.fpc.plan = some p → s.fpc.slots[k]? = some d → (slotFrame d).isSome = true →
    k * slotSize p ≤ a → a < (k + 1) * slotSize p → readByte t.mem a = readByte s.mem a)

/-- Every law holds at reset. -/
def Obligations.LawsHoldAtReset : Prop := SafeState State.reset
end

