-- ==== Sys2Proof/Laws/State.lean ====
section
/-! SUPPORT. The small lemmas of the state's updates: what each named update leaves in each field, and reading back a value
per source, lane or requester. -/

namespace Sys2Proof.Machine

/-! ### One value per source, lane or requester -/

@[simp] theorem PerSource.get_set_self {α : Type} (p : PerSource α) (x : Src) (v : α) : (p.set x v).get x = v := by
  cases x <;> rfl

@[simp] theorem PerSource.get_set_other {α : Type} (p : PerSource α) {x y : Src} (h : y ≠ x) (v : α) :
    (p.set x v).get y = p.get y := by
  cases x <;> cases y <;> first | rfl | exact absurd rfl h

theorem PerSource.get_set {α : Type} (p : PerSource α) (x y : Src) (v : α) :
    (p.set x v).get y = if y = x then v else p.get y := by
  cases x <;> cases y <;> rfl

@[simp] theorem PerSource.get_map {α β : Type} (f : α → β) (p : PerSource α) (x : Src) :
    (p.map f).get x = f (p.get x) := by
  cases x <;> rfl

@[simp] theorem PerSource.set_get {α : Type} (p : PerSource α) (x : Src) : p.set x (p.get x) = p := by
  cases x <;> rfl

@[simp] theorem PerSource.set_set {α : Type} (p : PerSource α) (x : Src) (u v : α) : (p.set x u).set x v = p.set x v := by
  cases x <;> rfl

theorem PerSource.ext_get {α : Type} {p q : PerSource α} (h : ∀ x, p.get x = q.get x) : p = q := by
  obtain ⟨a, b⟩ := p
  obtain ⟨c, d⟩ := q
  have h0 : a = c := h .s0
  have h1 : b = d := h .s1
  rw [h0, h1]

@[simp] theorem PerRL.get_set_self {α : Type} (p : PerRL α) (l : RLane) (v : α) : (p.set l v).get l = v := by
  cases l <;> rfl

@[simp] theorem PerRL.get_set_other {α : Type} (p : PerRL α) {l j : RLane} (h : j ≠ l) (v : α) :
    (p.set l v).get j = p.get j := by
  cases l <;> cases j <;> first | rfl | exact absurd rfl h

theorem PerRL.get_set {α : Type} (p : PerRL α) (l j : RLane) (v : α) :
    (p.set l v).get j = if j = l then v else p.get j := by
  cases l <;> cases j <;> rfl

@[simp] theorem PerRL.get_map {α β : Type} (f : α → β) (p : PerRL α) (l : RLane) : (p.map f).get l = f (p.get l) := by
  cases l <;> rfl

@[simp] theorem PerRL.set_get {α : Type} (p : PerRL α) (l : RLane) : p.set l (p.get l) = p := by
  cases l <;> rfl

@[simp] theorem PerRL.set_set {α : Type} (p : PerRL α) (l : RLane) (u v : α) : (p.set l u).set l v = p.set l v := by
  cases l <;> rfl

theorem PerRL.ext_get {α : Type} {p q : PerRL α} (h : ∀ l, p.get l = q.get l) : p = q := by
  obtain ⟨a, b, c, d⟩ := p
  obtain ⟨e, f, g, k⟩ := q
  have h0 : a = e := h .r0
  have h1 : b = f := h .r1
  have h2 : c = g := h .r2
  have h3 : d = k := h .r3
  rw [h0, h1, h2, h3]

@[simp] theorem PerReq.get_set_self {α : Type} (p : PerReq α) (r : Requester) (v : α) : (p.set r v).get r = v := by
  cases r <;> simp [PerReq.set, PerReq.get]

@[simp] theorem PerReq.get_set_other {α : Type} (p : PerReq α) {r q : Requester} (h : q ≠ r) (v : α) :
    (p.set r v).get q = p.get q := by
  cases r <;> cases q <;> simp_all [PerReq.set, PerReq.get]

theorem PerReq.get_set {α : Type} (p : PerReq α) (r q : Requester) (v : α) :
    (p.set r v).get q = if q = r then v else p.get q := by
  by_cases h : q = r
  · subst h; simp
  · simp [h]

@[simp] theorem PerReq.get_map {α β : Type} (f : α → β) (p : PerReq α) (r : Requester) : (p.map f).get r = f (p.get r) := by
  cases r <;> simp [PerReq.map, PerReq.get]

@[simp] theorem PerReq.get_map₂ {α β γ : Type} (f : α → β → γ) (p : PerReq α) (q : PerReq β) (r : Requester) :
    (PerReq.map₂ f p q).get r = f (p.get r) (q.get r) := by
  cases r with
  | il x => cases x <;> rfl
  | det => rfl
  | rl l => cases l <;> rfl


/-! ### `State.modIl` -/

@[simp] theorem State.modIl_pending (s : State) (x : Src) (f : IngestLane → IngestLane) : (s.modIl x f).pending = s.pending := rfl
@[simp] theorem State.modIl_rstnLow (s : State) (x : Src) (f : IngestLane → IngestLane) : (s.modIl x f).rstnLow = s.rstnLow := rfl
@[simp] theorem State.modIl_mem (s : State) (x : Src) (f : IngestLane → IngestLane) : (s.modIl x f).mem = s.mem := rfl
@[simp] theorem State.modIl_fpc (s : State) (x : Src) (f : IngestLane → IngestLane) : (s.modIl x f).fpc = s.fpc := rfl
@[simp] theorem State.modIl_rl (s : State) (x : Src) (f : IngestLane → IngestLane) : (s.modIl x f).rl = s.rl := rfl
@[simp] theorem State.modIl_cd (s : State) (x : Src) (f : IngestLane → IngestLane) : (s.modIl x f).cd = s.cd := rfl
@[simp] theorem State.modIl_attr (s : State) (x : Src) (f : IngestLane → IngestLane) : (s.modIl x f).attr = s.attr := rfl
@[simp] theorem State.modIl_band (s : State) (x : Src) (f : IngestLane → IngestLane) : (s.modIl x f).band = s.band := rfl
@[simp] theorem State.modIl_ms (s : State) (x : Src) (f : IngestLane → IngestLane) : (s.modIl x f).ms = s.ms := rfl
@[simp] theorem State.modIl_tcu (s : State) (x : Src) (f : IngestLane → IngestLane) : (s.modIl x f).tcu = s.tcu := rfl
@[simp] theorem State.modIl_clr (s : State) (x : Src) (f : IngestLane → IngestLane) : (s.modIl x f).clr = s.clr := rfl
@[simp] theorem State.modIl_mlu (s : State) (x : Src) (f : IngestLane → IngestLane) : (s.modIl x f).mlu = s.mlu := rfl

/-! ### `State.modRl` -/

@[simp] theorem State.modRl_pending (s : State) (l : RLane) (f : RenditionLane → RenditionLane) : (s.modRl l f).pending = s.pending := rfl
@[simp] theorem State.modRl_rstnLow (s : State) (l : RLane) (f : RenditionLane → RenditionLane) : (s.modRl l f).rstnLow = s.rstnLow := rfl
@[simp] theorem State.modRl_mem (s : State) (l : RLane) (f : RenditionLane → RenditionLane) : (s.modRl l f).mem = s.mem := rfl
@[simp] theorem State.modRl_fpc (s : State) (l : RLane) (f : RenditionLane → RenditionLane) : (s.modRl l f).fpc = s.fpc := rfl
@[simp] theorem State.modRl_il (s : State) (l : RLane) (f : RenditionLane → RenditionLane) : (s.modRl l f).il = s.il := rfl
@[simp] theorem State.modRl_cd (s : State) (l : RLane) (f : RenditionLane → RenditionLane) : (s.modRl l f).cd = s.cd := rfl
@[simp] theorem State.modRl_attr (s : State) (l : RLane) (f : RenditionLane → RenditionLane) : (s.modRl l f).attr = s.attr := rfl
@[simp] theorem State.modRl_band (s : State) (l : RLane) (f : RenditionLane → RenditionLane) : (s.modRl l f).band = s.band := rfl
@[simp] theorem State.modRl_ms (s : State) (l : RLane) (f : RenditionLane → RenditionLane) : (s.modRl l f).ms = s.ms := rfl
@[simp] theorem State.modRl_tcu (s : State) (l : RLane) (f : RenditionLane → RenditionLane) : (s.modRl l f).tcu = s.tcu := rfl
@[simp] theorem State.modRl_clr (s : State) (l : RLane) (f : RenditionLane → RenditionLane) : (s.modRl l f).clr = s.clr := rfl
@[simp] theorem State.modRl_mlu (s : State) (l : RLane) (f : RenditionLane → RenditionLane) : (s.modRl l f).mlu = s.mlu := rfl

/-! ### `State.setSlot` -/

@[simp] theorem State.setSlot_pending (s : State) (k : Nat) (v : Slot) : (s.setSlot k v).pending = s.pending := rfl
@[simp] theorem State.setSlot_rstnLow (s : State) (k : Nat) (v : Slot) : (s.setSlot k v).rstnLow = s.rstnLow := rfl
@[simp] theorem State.setSlot_mem (s : State) (k : Nat) (v : Slot) : (s.setSlot k v).mem = s.mem := rfl
@[simp] theorem State.setSlot_il (s : State) (k : Nat) (v : Slot) : (s.setSlot k v).il = s.il := rfl
@[simp] theorem State.setSlot_rl (s : State) (k : Nat) (v : Slot) : (s.setSlot k v).rl = s.rl := rfl
@[simp] theorem State.setSlot_cd (s : State) (k : Nat) (v : Slot) : (s.setSlot k v).cd = s.cd := rfl
@[simp] theorem State.setSlot_attr (s : State) (k : Nat) (v : Slot) : (s.setSlot k v).attr = s.attr := rfl
@[simp] theorem State.setSlot_band (s : State) (k : Nat) (v : Slot) : (s.setSlot k v).band = s.band := rfl
@[simp] theorem State.setSlot_ms (s : State) (k : Nat) (v : Slot) : (s.setSlot k v).ms = s.ms := rfl
@[simp] theorem State.setSlot_tcu (s : State) (k : Nat) (v : Slot) : (s.setSlot k v).tcu = s.tcu := rfl
@[simp] theorem State.setSlot_clr (s : State) (k : Nat) (v : Slot) : (s.setSlot k v).clr = s.clr := rfl
@[simp] theorem State.setSlot_mlu (s : State) (k : Nat) (v : Slot) : (s.setSlot k v).mlu = s.mlu := rfl

/-! ### `State.mapSlots` -/

@[simp] theorem State.mapSlots_pending (s : State) (f : Slot → Slot) : (s.mapSlots f).pending = s.pending := rfl
@[simp] theorem State.mapSlots_rstnLow (s : State) (f : Slot → Slot) : (s.mapSlots f).rstnLow = s.rstnLow := rfl
@[simp] theorem State.mapSlots_mem (s : State) (f : Slot → Slot) : (s.mapSlots f).mem = s.mem := rfl
@[simp] theorem State.mapSlots_il (s : State) (f : Slot → Slot) : (s.mapSlots f).il = s.il := rfl
@[simp] theorem State.mapSlots_rl (s : State) (f : Slot → Slot) : (s.mapSlots f).rl = s.rl := rfl
@[simp] theorem State.mapSlots_cd (s : State) (f : Slot → Slot) : (s.mapSlots f).cd = s.cd := rfl
@[simp] theorem State.mapSlots_attr (s : State) (f : Slot → Slot) : (s.mapSlots f).attr = s.attr := rfl
@[simp] theorem State.mapSlots_band (s : State) (f : Slot → Slot) : (s.mapSlots f).band = s.band := rfl
@[simp] theorem State.mapSlots_ms (s : State) (f : Slot → Slot) : (s.mapSlots f).ms = s.ms := rfl
@[simp] theorem State.mapSlots_tcu (s : State) (f : Slot → Slot) : (s.mapSlots f).tcu = s.tcu := rfl
@[simp] theorem State.mapSlots_clr (s : State) (f : Slot → Slot) : (s.mapSlots f).clr = s.clr := rfl
@[simp] theorem State.mapSlots_mlu (s : State) (f : Slot → Slot) : (s.mapSlots f).mlu = s.mlu := rfl

/-! ### `State.modCounters` -/

@[simp] theorem State.modCounters_pending (s : State) (x : Src) (f : SourceCounters → SourceCounters) : (s.modCounters x f).pending = s.pending := rfl
@[simp] theorem State.modCounters_rstnLow (s : State) (x : Src) (f : SourceCounters → SourceCounters) : (s.modCounters x f).rstnLow = s.rstnLow := rfl
@[simp] theorem State.modCounters_mem (s : State) (x : Src) (f : SourceCounters → SourceCounters) : (s.modCounters x f).mem = s.mem := rfl
@[simp] theorem State.modCounters_fpc (s : State) (x : Src) (f : SourceCounters → SourceCounters) : (s.modCounters x f).fpc = s.fpc := rfl
@[simp] theorem State.modCounters_il (s : State) (x : Src) (f : SourceCounters → SourceCounters) : (s.modCounters x f).il = s.il := rfl
@[simp] theorem State.modCounters_rl (s : State) (x : Src) (f : SourceCounters → SourceCounters) : (s.modCounters x f).rl = s.rl := rfl
@[simp] theorem State.modCounters_cd (s : State) (x : Src) (f : SourceCounters → SourceCounters) : (s.modCounters x f).cd = s.cd := rfl
@[simp] theorem State.modCounters_attr (s : State) (x : Src) (f : SourceCounters → SourceCounters) : (s.modCounters x f).attr = s.attr := rfl
@[simp] theorem State.modCounters_band (s : State) (x : Src) (f : SourceCounters → SourceCounters) : (s.modCounters x f).band = s.band := rfl
@[simp] theorem State.modCounters_ms (s : State) (x : Src) (f : SourceCounters → SourceCounters) : (s.modCounters x f).ms = s.ms := rfl
@[simp] theorem State.modCounters_tcu (s : State) (x : Src) (f : SourceCounters → SourceCounters) : (s.modCounters x f).tcu = s.tcu := rfl
@[simp] theorem State.modCounters_clr (s : State) (x : Src) (f : SourceCounters → SourceCounters) : (s.modCounters x f).clr = s.clr := rfl

/-! ### `State.modCadence` -/

@[simp] theorem State.modCadence_pending (s : State) (x : Src) (f : Cadence → Cadence) : (s.modCadence x f).pending = s.pending := rfl
@[simp] theorem State.modCadence_rstnLow (s : State) (x : Src) (f : Cadence → Cadence) : (s.modCadence x f).rstnLow = s.rstnLow := rfl
@[simp] theorem State.modCadence_mem (s : State) (x : Src) (f : Cadence → Cadence) : (s.modCadence x f).mem = s.mem := rfl
@[simp] theorem State.modCadence_fpc (s : State) (x : Src) (f : Cadence → Cadence) : (s.modCadence x f).fpc = s.fpc := rfl
@[simp] theorem State.modCadence_il (s : State) (x : Src) (f : Cadence → Cadence) : (s.modCadence x f).il = s.il := rfl
@[simp] theorem State.modCadence_rl (s : State) (x : Src) (f : Cadence → Cadence) : (s.modCadence x f).rl = s.rl := rfl
@[simp] theorem State.modCadence_cd (s : State) (x : Src) (f : Cadence → Cadence) : (s.modCadence x f).cd = s.cd := rfl
@[simp] theorem State.modCadence_attr (s : State) (x : Src) (f : Cadence → Cadence) : (s.modCadence x f).attr = s.attr := rfl
@[simp] theorem State.modCadence_band (s : State) (x : Src) (f : Cadence → Cadence) : (s.modCadence x f).band = s.band := rfl
@[simp] theorem State.modCadence_ms (s : State) (x : Src) (f : Cadence → Cadence) : (s.modCadence x f).ms = s.ms := rfl
@[simp] theorem State.modCadence_clr (s : State) (x : Src) (f : Cadence → Cadence) : (s.modCadence x f).clr = s.clr := rfl
@[simp] theorem State.modCadence_mlu (s : State) (x : Src) (f : Cadence → Cadence) : (s.modCadence x f).mlu = s.mlu := rfl

/-! ### `State.modLink` -/

@[simp] theorem State.modLink_pending (s : State) (lane : Lane) (f : Link → Link) : (s.modLink lane f).pending = s.pending := by
  cases lane <;> rfl
@[simp] theorem State.modLink_rstnLow (s : State) (lane : Lane) (f : Link → Link) : (s.modLink lane f).rstnLow = s.rstnLow := by
  cases lane <;> rfl
@[simp] theorem State.modLink_mem (s : State) (lane : Lane) (f : Link → Link) : (s.modLink lane f).mem = s.mem := by
  cases lane <;> rfl
@[simp] theorem State.modLink_fpc (s : State) (lane : Lane) (f : Link → Link) : (s.modLink lane f).fpc = s.fpc := by
  cases lane <;> rfl
@[simp] theorem State.modLink_cd (s : State) (lane : Lane) (f : Link → Link) : (s.modLink lane f).cd = s.cd := by
  cases lane <;> rfl
@[simp] theorem State.modLink_attr (s : State) (lane : Lane) (f : Link → Link) : (s.modLink lane f).attr = s.attr := by
  cases lane <;> rfl
@[simp] theorem State.modLink_band (s : State) (lane : Lane) (f : Link → Link) : (s.modLink lane f).band = s.band := by
  cases lane <;> rfl
@[simp] theorem State.modLink_ms (s : State) (lane : Lane) (f : Link → Link) : (s.modLink lane f).ms = s.ms := by
  cases lane <;> rfl
@[simp] theorem State.modLink_tcu (s : State) (lane : Lane) (f : Link → Link) : (s.modLink lane f).tcu = s.tcu := by
  cases lane <;> rfl
@[simp] theorem State.modLink_clr (s : State) (lane : Lane) (f : Link → Link) : (s.modLink lane f).clr = s.clr := by
  cases lane <;> rfl
@[simp] theorem State.modLink_mlu (s : State) (lane : Lane) (f : Link → Link) : (s.modLink lane f).mlu = s.mlu := by
  cases lane <;> rfl

/-! ### What the updates set -/

@[simp] theorem State.modIl_il (s : State) (x : Src) (f : IngestLane → IngestLane) :
    (s.modIl x f).il = s.il.set x (f (s.il.get x)) := rfl

@[simp] theorem State.modRl_rl (s : State) (l : RLane) (f : RenditionLane → RenditionLane) :
    (s.modRl l f).rl = s.rl.set l (f (s.rl.get l)) := rfl

@[simp] theorem State.setSlot_fpc (s : State) (k : Nat) (v : Slot) :
    (s.setSlot k v).fpc = { s.fpc with slots := s.fpc.slots.set k v } := rfl

@[simp] theorem State.mapSlots_fpc (s : State) (f : Slot → Slot) :
    (s.mapSlots f).fpc = { s.fpc with slots := s.fpc.slots.map f } := rfl

@[simp] theorem State.modCounters_mlu (s : State) (x : Src) (f : SourceCounters → SourceCounters) :
    (s.modCounters x f).mlu = { s.mlu with counters := s.mlu.counters.set x (f (s.mlu.counters.get x)) } := rfl

@[simp] theorem State.modCadence_tcu (s : State) (x : Src) (f : Cadence → Cadence) :
    (s.modCadence x f).tcu = { s.tcu with cadence := s.tcu.cadence.set x (f (s.tcu.cadence.get x)) } := rfl

/-! ### Links -/

@[simp] theorem State.link_modLink_self (s : State) (lane : Lane) (f : Link → Link) :
    (s.modLink lane f).link lane = f (s.link lane) := by
  cases lane <;> simp [State.link, State.modLink]

@[simp] theorem State.link_modLink_other (s : State) {lane other : Lane} (h : other ≠ lane) (f : Link → Link) :
    (s.modLink lane f).link other = s.link other := by
  cases lane <;> cases other <;> simp_all [State.link, State.modLink]

theorem State.link_modLink (s : State) (lane other : Lane) (f : Link → Link) :
    (s.modLink lane f).link other = if other = lane then f (s.link lane) else s.link other := by
  by_cases h : other = lane
  · subst h; simp
  · simp [h]

/-! ### Slots -/

theorem State.slot_setSlot (s : State) (k j : Nat) (v : Slot) :
    (s.setSlot k v).slot j = if j = k ∧ k < s.fpc.slots.length then v else s.slot j := by
  by_cases h : j = k
  · subst h
    by_cases h' : j < s.fpc.slots.length
    · simp [State.slot, h']
    · simp [State.slot, h']
  · simp [State.slot, List.getElem?_set_ne (Ne.symm h), h]

@[simp] theorem State.setSlot_length (s : State) (k : Nat) (v : Slot) :
    (s.setSlot k v).fpc.slots.length = s.fpc.slots.length := by
  simp

@[simp] theorem State.mapSlots_length (s : State) (f : Slot → Slot) :
    (s.mapSlots f).fpc.slots.length = s.fpc.slots.length := by
  simp

end Sys2Proof.Machine
end

