-- ==== Sys2Proof/Laws/Frames.lean ====
section
/-! SUPPORT. What each shared operation leaves alone: one lemma per operation and field that it does not change. A later
proof cites these in place of unfolding the operation. -/

namespace Sys2Proof.Machine

/-- A fold keeps what each of its steps keeps. -/
theorem foldl_keep {σ α β : Type} (g : σ → β) (f : σ → α → σ) (h : ∀ s a, g (f s a) = g s) (l : List α) (s : σ) :
    g (l.foldl f s) = g s := by
  induction l generalizing s with
  | nil => rfl
  | cons a l ih => rw [List.foldl_cons, ih, h]

/-- A fold keeps an invariant that each of its steps keeps. -/
theorem foldl_inv {σ α : Type} (P : σ → Prop) (f : σ → α → σ) (h : ∀ s a, P s → P (f s a)) (l : List α) (s : σ) (hs : P s) :
    P (l.foldl f s) := by
  induction l generalizing s with
  | nil => exact hs
  | cons a l ih => exact ih _ (h s a hs)


/-! ### `pushAnswer`: an answer joins a lane's outgoing records -/

@[simp] theorem pushAnswer_pending (lane : Lane) (a : Answer) (s : State) :
    (pushAnswer lane a s).pending = s.pending := by
  simp [pushAnswer]

@[simp] theorem pushAnswer_rstnLow (lane : Lane) (a : Answer) (s : State) :
    (pushAnswer lane a s).rstnLow = s.rstnLow := by
  simp [pushAnswer]

@[simp] theorem pushAnswer_mem (lane : Lane) (a : Answer) (s : State) :
    (pushAnswer lane a s).mem = s.mem := by
  simp [pushAnswer]

@[simp] theorem pushAnswer_fpc (lane : Lane) (a : Answer) (s : State) :
    (pushAnswer lane a s).fpc = s.fpc := by
  simp [pushAnswer]

@[simp] theorem pushAnswer_cd (lane : Lane) (a : Answer) (s : State) :
    (pushAnswer lane a s).cd = s.cd := by
  simp [pushAnswer]

@[simp] theorem pushAnswer_attr (lane : Lane) (a : Answer) (s : State) :
    (pushAnswer lane a s).attr = s.attr := by
  simp [pushAnswer]

@[simp] theorem pushAnswer_band (lane : Lane) (a : Answer) (s : State) :
    (pushAnswer lane a s).band = s.band := by
  simp [pushAnswer]

@[simp] theorem pushAnswer_ms (lane : Lane) (a : Answer) (s : State) :
    (pushAnswer lane a s).ms = s.ms := by
  simp [pushAnswer]

@[simp] theorem pushAnswer_tcu (lane : Lane) (a : Answer) (s : State) :
    (pushAnswer lane a s).tcu = s.tcu := by
  simp [pushAnswer]

@[simp] theorem pushAnswer_clr (lane : Lane) (a : Answer) (s : State) :
    (pushAnswer lane a s).clr = s.clr := by
  simp [pushAnswer]

@[simp] theorem pushAnswer_mlu (lane : Lane) (a : Answer) (s : State) :
    (pushAnswer lane a s).mlu = s.mlu := by
  simp [pushAnswer]


/-! ### `answerHead`: the head of a lane's queue is answered -/

@[simp] theorem answerHead_pending (lane : Lane) (c : AnswerCode) (b : List Byte) (s : State) :
    (answerHead lane c b s).pending = s.pending := by
  unfold answerHead
  split <;> simp

@[simp] theorem answerHead_rstnLow (lane : Lane) (c : AnswerCode) (b : List Byte) (s : State) :
    (answerHead lane c b s).rstnLow = s.rstnLow := by
  unfold answerHead
  split <;> simp

@[simp] theorem answerHead_mem (lane : Lane) (c : AnswerCode) (b : List Byte) (s : State) :
    (answerHead lane c b s).mem = s.mem := by
  unfold answerHead
  split <;> simp

@[simp] theorem answerHead_fpc (lane : Lane) (c : AnswerCode) (b : List Byte) (s : State) :
    (answerHead lane c b s).fpc = s.fpc := by
  unfold answerHead
  split <;> simp

@[simp] theorem answerHead_cd (lane : Lane) (c : AnswerCode) (b : List Byte) (s : State) :
    (answerHead lane c b s).cd = s.cd := by
  unfold answerHead
  split <;> simp

@[simp] theorem answerHead_attr (lane : Lane) (c : AnswerCode) (b : List Byte) (s : State) :
    (answerHead lane c b s).attr = s.attr := by
  unfold answerHead
  split <;> simp

@[simp] theorem answerHead_band (lane : Lane) (c : AnswerCode) (b : List Byte) (s : State) :
    (answerHead lane c b s).band = s.band := by
  unfold answerHead
  split <;> simp

@[simp] theorem answerHead_ms (lane : Lane) (c : AnswerCode) (b : List Byte) (s : State) :
    (answerHead lane c b s).ms = s.ms := by
  unfold answerHead
  split <;> simp

@[simp] theorem answerHead_tcu (lane : Lane) (c : AnswerCode) (b : List Byte) (s : State) :
    (answerHead lane c b s).tcu = s.tcu := by
  unfold answerHead
  split <;> simp

@[simp] theorem answerHead_clr (lane : Lane) (c : AnswerCode) (b : List Byte) (s : State) :
    (answerHead lane c b s).clr = s.clr := by
  unfold answerHead
  split <;> simp

@[simp] theorem answerHead_mlu (lane : Lane) (c : AnswerCode) (b : List Byte) (s : State) :
    (answerHead lane c b s).mlu = s.mlu := by
  unfold answerHead
  split <;> simp


/-! ### `placeNotice`: a notice joins a lane's queue -/

@[simp] theorem placeNotice_pending (l : RLane) (n : Notice) (s : State) :
    (placeNotice l n s).pending = s.pending := by
  simp [placeNotice]

@[simp] theorem placeNotice_rstnLow (l : RLane) (n : Notice) (s : State) :
    (placeNotice l n s).rstnLow = s.rstnLow := by
  simp [placeNotice]

@[simp] theorem placeNotice_mem (l : RLane) (n : Notice) (s : State) :
    (placeNotice l n s).mem = s.mem := by
  simp [placeNotice]

@[simp] theorem placeNotice_fpc (l : RLane) (n : Notice) (s : State) :
    (placeNotice l n s).fpc = s.fpc := by
  simp [placeNotice]

@[simp] theorem placeNotice_il (l : RLane) (n : Notice) (s : State) :
    (placeNotice l n s).il = s.il := by
  simp [placeNotice]

@[simp] theorem placeNotice_cd (l : RLane) (n : Notice) (s : State) :
    (placeNotice l n s).cd = s.cd := by
  simp [placeNotice]

@[simp] theorem placeNotice_attr (l : RLane) (n : Notice) (s : State) :
    (placeNotice l n s).attr = s.attr := by
  simp [placeNotice]

@[simp] theorem placeNotice_band (l : RLane) (n : Notice) (s : State) :
    (placeNotice l n s).band = s.band := by
  simp [placeNotice]

@[simp] theorem placeNotice_ms (l : RLane) (n : Notice) (s : State) :
    (placeNotice l n s).ms = s.ms := by
  simp [placeNotice]

@[simp] theorem placeNotice_tcu (l : RLane) (n : Notice) (s : State) :
    (placeNotice l n s).tcu = s.tcu := by
  simp [placeNotice]

@[simp] theorem placeNotice_clr (l : RLane) (n : Notice) (s : State) :
    (placeNotice l n s).clr = s.clr := by
  simp [placeNotice]

@[simp] theorem placeNotice_mlu (l : RLane) (n : Notice) (s : State) :
    (placeNotice l n s).mlu = s.mlu := by
  simp [placeNotice]


/-! ### `fireChannel`: a channel fires -/

@[simp] theorem fireChannel_pending (c : Nat) (e : Event) (s : State) :
    (fireChannel c e s).pending = s.pending := by
  exact foldl_keep (fun t : State => t.pending) _ (fun s l => by split <;> simp) _ _

@[simp] theorem fireChannel_rstnLow (c : Nat) (e : Event) (s : State) :
    (fireChannel c e s).rstnLow = s.rstnLow := by
  exact foldl_keep (fun t : State => t.rstnLow) _ (fun s l => by split <;> simp) _ _

@[simp] theorem fireChannel_mem (c : Nat) (e : Event) (s : State) :
    (fireChannel c e s).mem = s.mem := by
  exact foldl_keep (fun t : State => t.mem) _ (fun s l => by split <;> simp) _ _

@[simp] theorem fireChannel_fpc (c : Nat) (e : Event) (s : State) :
    (fireChannel c e s).fpc = s.fpc := by
  exact foldl_keep (fun t : State => t.fpc) _ (fun s l => by split <;> simp) _ _

@[simp] theorem fireChannel_il (c : Nat) (e : Event) (s : State) :
    (fireChannel c e s).il = s.il := by
  exact foldl_keep (fun t : State => t.il) _ (fun s l => by split <;> simp) _ _

@[simp] theorem fireChannel_cd (c : Nat) (e : Event) (s : State) :
    (fireChannel c e s).cd = s.cd := by
  exact foldl_keep (fun t : State => t.cd) _ (fun s l => by split <;> simp) _ _

@[simp] theorem fireChannel_attr (c : Nat) (e : Event) (s : State) :
    (fireChannel c e s).attr = s.attr := by
  exact foldl_keep (fun t : State => t.attr) _ (fun s l => by split <;> simp) _ _

@[simp] theorem fireChannel_band (c : Nat) (e : Event) (s : State) :
    (fireChannel c e s).band = s.band := by
  exact foldl_keep (fun t : State => t.band) _ (fun s l => by split <;> simp) _ _

@[simp] theorem fireChannel_ms (c : Nat) (e : Event) (s : State) :
    (fireChannel c e s).ms = s.ms := by
  exact foldl_keep (fun t : State => t.ms) _ (fun s l => by split <;> simp) _ _

@[simp] theorem fireChannel_tcu (c : Nat) (e : Event) (s : State) :
    (fireChannel c e s).tcu = s.tcu := by
  exact foldl_keep (fun t : State => t.tcu) _ (fun s l => by split <;> simp) _ _

@[simp] theorem fireChannel_mlu (c : Nat) (e : Event) (s : State) :
    (fireChannel c e s).mlu = s.mlu := by
  exact foldl_keep (fun t : State => t.mlu) _ (fun s l => by split <;> simp) _ _


/-! ### `fireEvent`: an event is raised -/

@[simp] theorem fireEvent_pending (e : Event) (s : State) :
    (fireEvent e s).pending = s.pending := by
  exact foldl_keep (fun t : State => t.pending) _ (fun s c => by split <;> simp) _ _

@[simp] theorem fireEvent_rstnLow (e : Event) (s : State) :
    (fireEvent e s).rstnLow = s.rstnLow := by
  exact foldl_keep (fun t : State => t.rstnLow) _ (fun s c => by split <;> simp) _ _

@[simp] theorem fireEvent_mem (e : Event) (s : State) :
    (fireEvent e s).mem = s.mem := by
  exact foldl_keep (fun t : State => t.mem) _ (fun s c => by split <;> simp) _ _

@[simp] theorem fireEvent_fpc (e : Event) (s : State) :
    (fireEvent e s).fpc = s.fpc := by
  exact foldl_keep (fun t : State => t.fpc) _ (fun s c => by split <;> simp) _ _

@[simp] theorem fireEvent_il (e : Event) (s : State) :
    (fireEvent e s).il = s.il := by
  exact foldl_keep (fun t : State => t.il) _ (fun s c => by split <;> simp) _ _

@[simp] theorem fireEvent_cd (e : Event) (s : State) :
    (fireEvent e s).cd = s.cd := by
  exact foldl_keep (fun t : State => t.cd) _ (fun s c => by split <;> simp) _ _

@[simp] theorem fireEvent_attr (e : Event) (s : State) :
    (fireEvent e s).attr = s.attr := by
  exact foldl_keep (fun t : State => t.attr) _ (fun s c => by split <;> simp) _ _

@[simp] theorem fireEvent_band (e : Event) (s : State) :
    (fireEvent e s).band = s.band := by
  exact foldl_keep (fun t : State => t.band) _ (fun s c => by split <;> simp) _ _

@[simp] theorem fireEvent_ms (e : Event) (s : State) :
    (fireEvent e s).ms = s.ms := by
  exact foldl_keep (fun t : State => t.ms) _ (fun s c => by split <;> simp) _ _

@[simp] theorem fireEvent_tcu (e : Event) (s : State) :
    (fireEvent e s).tcu = s.tcu := by
  exact foldl_keep (fun t : State => t.tcu) _ (fun s c => by split <;> simp) _ _

@[simp] theorem fireEvent_mlu (e : Event) (s : State) :
    (fireEvent e s).mlu = s.mlu := by
  exact foldl_keep (fun t : State => t.mlu) _ (fun s c => by split <;> simp) _ _


/-! ### `notePoolLow`: POOL_LOW is examined -/

@[simp] theorem notePoolLow_pending (n : Nat) (s : State) :
    (notePoolLow n s).pending = s.pending := by
  unfold notePoolLow
  split <;> simp

@[simp] theorem notePoolLow_rstnLow (n : Nat) (s : State) :
    (notePoolLow n s).rstnLow = s.rstnLow := by
  unfold notePoolLow
  split <;> simp

@[simp] theorem notePoolLow_mem (n : Nat) (s : State) :
    (notePoolLow n s).mem = s.mem := by
  unfold notePoolLow
  split <;> simp

@[simp] theorem notePoolLow_fpc (n : Nat) (s : State) :
    (notePoolLow n s).fpc = s.fpc := by
  unfold notePoolLow
  split <;> simp

@[simp] theorem notePoolLow_il (n : Nat) (s : State) :
    (notePoolLow n s).il = s.il := by
  unfold notePoolLow
  split <;> simp

@[simp] theorem notePoolLow_cd (n : Nat) (s : State) :
    (notePoolLow n s).cd = s.cd := by
  unfold notePoolLow
  split <;> simp

@[simp] theorem notePoolLow_attr (n : Nat) (s : State) :
    (notePoolLow n s).attr = s.attr := by
  unfold notePoolLow
  split <;> simp

@[simp] theorem notePoolLow_band (n : Nat) (s : State) :
    (notePoolLow n s).band = s.band := by
  unfold notePoolLow
  split <;> simp

@[simp] theorem notePoolLow_ms (n : Nat) (s : State) :
    (notePoolLow n s).ms = s.ms := by
  unfold notePoolLow
  split <;> simp

@[simp] theorem notePoolLow_tcu (n : Nat) (s : State) :
    (notePoolLow n s).tcu = s.tcu := by
  unfold notePoolLow
  split <;> simp

@[simp] theorem notePoolLow_mlu (n : Nat) (s : State) :
    (notePoolLow n s).mlu = s.mlu := by
  unfold notePoolLow
  split <;> simp


/-! ### `fillSlot`: a slot becomes FILLING -/

@[simp] theorem fillSlot_pending (x : Src) (p : Pts) (k : Nat) (s : State) :
    (fillSlot x p k s).pending = s.pending := by
  simp [fillSlot]

@[simp] theorem fillSlot_rstnLow (x : Src) (p : Pts) (k : Nat) (s : State) :
    (fillSlot x p k s).rstnLow = s.rstnLow := by
  simp [fillSlot]

@[simp] theorem fillSlot_mem (x : Src) (p : Pts) (k : Nat) (s : State) :
    (fillSlot x p k s).mem = s.mem := by
  simp [fillSlot]

@[simp] theorem fillSlot_rl (x : Src) (p : Pts) (k : Nat) (s : State) :
    (fillSlot x p k s).rl = s.rl := by
  simp [fillSlot]

@[simp] theorem fillSlot_cd (x : Src) (p : Pts) (k : Nat) (s : State) :
    (fillSlot x p k s).cd = s.cd := by
  simp [fillSlot]

@[simp] theorem fillSlot_attr (x : Src) (p : Pts) (k : Nat) (s : State) :
    (fillSlot x p k s).attr = s.attr := by
  simp [fillSlot]

@[simp] theorem fillSlot_band (x : Src) (p : Pts) (k : Nat) (s : State) :
    (fillSlot x p k s).band = s.band := by
  simp [fillSlot]

@[simp] theorem fillSlot_ms (x : Src) (p : Pts) (k : Nat) (s : State) :
    (fillSlot x p k s).ms = s.ms := by
  simp [fillSlot]

@[simp] theorem fillSlot_tcu (x : Src) (p : Pts) (k : Nat) (s : State) :
    (fillSlot x p k s).tcu = s.tcu := by
  simp [fillSlot]

@[simp] theorem fillSlot_clr (x : Src) (p : Pts) (k : Nat) (s : State) :
    (fillSlot x p k s).clr = s.clr := by
  simp [fillSlot]

@[simp] theorem fillSlot_mlu (x : Src) (p : Pts) (k : Nat) (s : State) :
    (fillSlot x p k s).mlu = s.mlu := by
  simp [fillSlot]


/-! ### `evictFrame`: an eviction's notices, counts and event -/

@[simp] theorem evictFrame_pending (k : Nat) (s : State) :
    (evictFrame k s).pending = s.pending := by
  unfold evictFrame
  split
  · dsimp only
    simp only [fireEvent_pending, State.modCounters_pending]
    exact foldl_keep (fun t : State => t.pending) _ (fun s l => by split <;> simp) _ _
  · rfl

@[simp] theorem evictFrame_rstnLow (k : Nat) (s : State) :
    (evictFrame k s).rstnLow = s.rstnLow := by
  unfold evictFrame
  split
  · dsimp only
    simp only [fireEvent_rstnLow, State.modCounters_rstnLow]
    exact foldl_keep (fun t : State => t.rstnLow) _ (fun s l => by split <;> simp) _ _
  · rfl

@[simp] theorem evictFrame_mem (k : Nat) (s : State) :
    (evictFrame k s).mem = s.mem := by
  unfold evictFrame
  split
  · dsimp only
    simp only [fireEvent_mem, State.modCounters_mem]
    exact foldl_keep (fun t : State => t.mem) _ (fun s l => by split <;> simp) _ _
  · rfl

@[simp] theorem evictFrame_fpc (k : Nat) (s : State) :
    (evictFrame k s).fpc = s.fpc := by
  unfold evictFrame
  split
  · dsimp only
    simp only [fireEvent_fpc, State.modCounters_fpc]
    exact foldl_keep (fun t : State => t.fpc) _ (fun s l => by split <;> simp) _ _
  · rfl

@[simp] theorem evictFrame_il (k : Nat) (s : State) :
    (evictFrame k s).il = s.il := by
  unfold evictFrame
  split
  · dsimp only
    simp only [fireEvent_il, State.modCounters_il]
    exact foldl_keep (fun t : State => t.il) _ (fun s l => by split <;> simp) _ _
  · rfl

@[simp] theorem evictFrame_cd (k : Nat) (s : State) :
    (evictFrame k s).cd = s.cd := by
  unfold evictFrame
  split
  · dsimp only
    simp only [fireEvent_cd, State.modCounters_cd]
    exact foldl_keep (fun t : State => t.cd) _ (fun s l => by split <;> simp) _ _
  · rfl

@[simp] theorem evictFrame_attr (k : Nat) (s : State) :
    (evictFrame k s).attr = s.attr := by
  unfold evictFrame
  split
  · dsimp only
    simp only [fireEvent_attr, State.modCounters_attr]
    exact foldl_keep (fun t : State => t.attr) _ (fun s l => by split <;> simp) _ _
  · rfl

@[simp] theorem evictFrame_band (k : Nat) (s : State) :
    (evictFrame k s).band = s.band := by
  unfold evictFrame
  split
  · dsimp only
    simp only [fireEvent_band, State.modCounters_band]
    exact foldl_keep (fun t : State => t.band) _ (fun s l => by split <;> simp) _ _
  · rfl

@[simp] theorem evictFrame_ms (k : Nat) (s : State) :
    (evictFrame k s).ms = s.ms := by
  unfold evictFrame
  split
  · dsimp only
    simp only [fireEvent_ms, State.modCounters_ms]
    exact foldl_keep (fun t : State => t.ms) _ (fun s l => by split <;> simp) _ _
  · rfl

@[simp] theorem evictFrame_tcu (k : Nat) (s : State) :
    (evictFrame k s).tcu = s.tcu := by
  unfold evictFrame
  split
  · dsimp only
    simp only [fireEvent_tcu, State.modCounters_tcu]
    exact foldl_keep (fun t : State => t.tcu) _ (fun s l => by split <;> simp) _ _
  · rfl


/-! ### `serveOpen`: an open is served -/

@[simp] theorem serveOpen_pending (x : Src) (p : Pts) (c : OpenChoice) (s : State) :
    (serveOpen x p c s).pending = s.pending := by
  cases c <;> simp [serveOpen]

@[simp] theorem serveOpen_rstnLow (x : Src) (p : Pts) (c : OpenChoice) (s : State) :
    (serveOpen x p c s).rstnLow = s.rstnLow := by
  cases c <;> simp [serveOpen]

@[simp] theorem serveOpen_mem (x : Src) (p : Pts) (c : OpenChoice) (s : State) :
    (serveOpen x p c s).mem = s.mem := by
  cases c <;> simp [serveOpen]

@[simp] theorem serveOpen_cd (x : Src) (p : Pts) (c : OpenChoice) (s : State) :
    (serveOpen x p c s).cd = s.cd := by
  cases c <;> simp [serveOpen]

@[simp] theorem serveOpen_attr (x : Src) (p : Pts) (c : OpenChoice) (s : State) :
    (serveOpen x p c s).attr = s.attr := by
  cases c <;> simp [serveOpen]

@[simp] theorem serveOpen_band (x : Src) (p : Pts) (c : OpenChoice) (s : State) :
    (serveOpen x p c s).band = s.band := by
  cases c <;> simp [serveOpen]

@[simp] theorem serveOpen_ms (x : Src) (p : Pts) (c : OpenChoice) (s : State) :
    (serveOpen x p c s).ms = s.ms := by
  cases c <;> simp [serveOpen]

@[simp] theorem serveOpen_tcu (x : Src) (p : Pts) (c : OpenChoice) (s : State) :
    (serveOpen x p c s).tcu = s.tcu := by
  cases c <;> simp [serveOpen]


/-! ### The slot wait list -/

theorem serveWaitOnce_pending {s t : State} (h : serveWaitOnce s = some t) : t.pending = s.pending := by
  unfold serveWaitOnce at h
  split at h
  · cases h
  · split at h
    · cases h
    · cases h
      simp

@[simp] theorem serveWait_pending (n : Nat) (s : State) : (serveWait n s).pending = s.pending := by
  induction n generalizing s with
  | zero => rfl
  | succ n ih =>
    simp only [serveWait]
    split
    · rename_i h
      rw [ih, serveWaitOnce_pending h]
    · rfl

@[simp] theorem serveWaitList_pending (s : State) : (serveWaitList s).pending = s.pending := serveWait_pending _ s

theorem serveWaitOnce_rstnLow {s t : State} (h : serveWaitOnce s = some t) : t.rstnLow = s.rstnLow := by
  unfold serveWaitOnce at h
  split at h
  · cases h
  · split at h
    · cases h
    · cases h
      simp

@[simp] theorem serveWait_rstnLow (n : Nat) (s : State) : (serveWait n s).rstnLow = s.rstnLow := by
  induction n generalizing s with
  | zero => rfl
  | succ n ih =>
    simp only [serveWait]
    split
    · rename_i h
      rw [ih, serveWaitOnce_rstnLow h]
    · rfl

@[simp] theorem serveWaitList_rstnLow (s : State) : (serveWaitList s).rstnLow = s.rstnLow := serveWait_rstnLow _ s

theorem serveWaitOnce_mem {s t : State} (h : serveWaitOnce s = some t) : t.mem = s.mem := by
  unfold serveWaitOnce at h
  split at h
  · cases h
  · split at h
    · cases h
    · cases h
      simp

@[simp] theorem serveWait_mem (n : Nat) (s : State) : (serveWait n s).mem = s.mem := by
  induction n generalizing s with
  | zero => rfl
  | succ n ih =>
    simp only [serveWait]
    split
    · rename_i h
      rw [ih, serveWaitOnce_mem h]
    · rfl

@[simp] theorem serveWaitList_mem (s : State) : (serveWaitList s).mem = s.mem := serveWait_mem _ s

theorem serveWaitOnce_cd {s t : State} (h : serveWaitOnce s = some t) : t.cd = s.cd := by
  unfold serveWaitOnce at h
  split at h
  · cases h
  · split at h
    · cases h
    · cases h
      simp

@[simp] theorem serveWait_cd (n : Nat) (s : State) : (serveWait n s).cd = s.cd := by
  induction n generalizing s with
  | zero => rfl
  | succ n ih =>
    simp only [serveWait]
    split
    · rename_i h
      rw [ih, serveWaitOnce_cd h]
    · rfl

@[simp] theorem serveWaitList_cd (s : State) : (serveWaitList s).cd = s.cd := serveWait_cd _ s

theorem serveWaitOnce_attr {s t : State} (h : serveWaitOnce s = some t) : t.attr = s.attr := by
  unfold serveWaitOnce at h
  split at h
  · cases h
  · split at h
    · cases h
    · cases h
      simp

@[simp] theorem serveWait_attr (n : Nat) (s : State) : (serveWait n s).attr = s.attr := by
  induction n generalizing s with
  | zero => rfl
  | succ n ih =>
    simp only [serveWait]
    split
    · rename_i h
      rw [ih, serveWaitOnce_attr h]
    · rfl

@[simp] theorem serveWaitList_attr (s : State) : (serveWaitList s).attr = s.attr := serveWait_attr _ s

theorem serveWaitOnce_band {s t : State} (h : serveWaitOnce s = some t) : t.band = s.band := by
  unfold serveWaitOnce at h
  split at h
  · cases h
  · split at h
    · cases h
    · cases h
      simp

@[simp] theorem serveWait_band (n : Nat) (s : State) : (serveWait n s).band = s.band := by
  induction n generalizing s with
  | zero => rfl
  | succ n ih =>
    simp only [serveWait]
    split
    · rename_i h
      rw [ih, serveWaitOnce_band h]
    · rfl

@[simp] theorem serveWaitList_band (s : State) : (serveWaitList s).band = s.band := serveWait_band _ s

theorem serveWaitOnce_ms {s t : State} (h : serveWaitOnce s = some t) : t.ms = s.ms := by
  unfold serveWaitOnce at h
  split at h
  · cases h
  · split at h
    · cases h
    · cases h
      simp

@[simp] theorem serveWait_ms (n : Nat) (s : State) : (serveWait n s).ms = s.ms := by
  induction n generalizing s with
  | zero => rfl
  | succ n ih =>
    simp only [serveWait]
    split
    · rename_i h
      rw [ih, serveWaitOnce_ms h]
    · rfl

@[simp] theorem serveWaitList_ms (s : State) : (serveWaitList s).ms = s.ms := serveWait_ms _ s

theorem serveWaitOnce_tcu {s t : State} (h : serveWaitOnce s = some t) : t.tcu = s.tcu := by
  unfold serveWaitOnce at h
  split at h
  · cases h
  · split at h
    · cases h
    · cases h
      simp

@[simp] theorem serveWait_tcu (n : Nat) (s : State) : (serveWait n s).tcu = s.tcu := by
  induction n generalizing s with
  | zero => rfl
  | succ n ih =>
    simp only [serveWait]
    split
    · rename_i h
      rw [ih, serveWaitOnce_tcu h]
    · rfl

@[simp] theorem serveWaitList_tcu (s : State) : (serveWaitList s).tcu = s.tcu := serveWait_tcu _ s


/-! ### `examineSlot`: the free check of one slot -/

@[simp] theorem examineSlot_pending (was : Slot) (k : Nat) (s : State) :
    (examineSlot was k s).pending = s.pending := by
  unfold examineSlot
  split
  · split
    · simp
    · split <;> simp
  · rfl

@[simp] theorem examineSlot_rstnLow (was : Slot) (k : Nat) (s : State) :
    (examineSlot was k s).rstnLow = s.rstnLow := by
  unfold examineSlot
  split
  · split
    · simp
    · split <;> simp
  · rfl

@[simp] theorem examineSlot_mem (was : Slot) (k : Nat) (s : State) :
    (examineSlot was k s).mem = s.mem := by
  unfold examineSlot
  split
  · split
    · simp
    · split <;> simp
  · rfl

@[simp] theorem examineSlot_cd (was : Slot) (k : Nat) (s : State) :
    (examineSlot was k s).cd = s.cd := by
  unfold examineSlot
  split
  · split
    · simp
    · split <;> simp
  · rfl

@[simp] theorem examineSlot_attr (was : Slot) (k : Nat) (s : State) :
    (examineSlot was k s).attr = s.attr := by
  unfold examineSlot
  split
  · split
    · simp
    · split <;> simp
  · rfl

@[simp] theorem examineSlot_band (was : Slot) (k : Nat) (s : State) :
    (examineSlot was k s).band = s.band := by
  unfold examineSlot
  split
  · split
    · simp
    · split <;> simp
  · rfl

@[simp] theorem examineSlot_ms (was : Slot) (k : Nat) (s : State) :
    (examineSlot was k s).ms = s.ms := by
  unfold examineSlot
  split
  · split
    · simp
    · split <;> simp
  · rfl

@[simp] theorem examineSlot_tcu (was : Slot) (k : Nat) (s : State) :
    (examineSlot was k s).tcu = s.tcu := by
  unfold examineSlot
  split
  · split
    · simp
    · split <;> simp
  · rfl


/-! ### `settle`: the slots an event touched are examined -/

@[simp] theorem settle_pending (before : List Slot) (s : State) :
    (settle before s).pending = s.pending := by
  exact foldl_keep (fun t : State => t.pending) _ (fun s k => by split <;> simp) _ _

@[simp] theorem settle_rstnLow (before : List Slot) (s : State) :
    (settle before s).rstnLow = s.rstnLow := by
  exact foldl_keep (fun t : State => t.rstnLow) _ (fun s k => by split <;> simp) _ _

@[simp] theorem settle_mem (before : List Slot) (s : State) :
    (settle before s).mem = s.mem := by
  exact foldl_keep (fun t : State => t.mem) _ (fun s k => by split <;> simp) _ _

@[simp] theorem settle_cd (before : List Slot) (s : State) :
    (settle before s).cd = s.cd := by
  exact foldl_keep (fun t : State => t.cd) _ (fun s k => by split <;> simp) _ _

@[simp] theorem settle_attr (before : List Slot) (s : State) :
    (settle before s).attr = s.attr := by
  exact foldl_keep (fun t : State => t.attr) _ (fun s k => by split <;> simp) _ _

@[simp] theorem settle_band (before : List Slot) (s : State) :
    (settle before s).band = s.band := by
  exact foldl_keep (fun t : State => t.band) _ (fun s k => by split <;> simp) _ _

@[simp] theorem settle_ms (before : List Slot) (s : State) :
    (settle before s).ms = s.ms := by
  exact foldl_keep (fun t : State => t.ms) _ (fun s k => by split <;> simp) _ _

@[simp] theorem settle_tcu (before : List Slot) (s : State) :
    (settle before s).tcu = s.tcu := by
  exact foldl_keep (fun t : State => t.tcu) _ (fun s k => by split <;> simp) _ _


/-! ### `leaveSource`: a lane leaves a source's owed sets -/

@[simp] theorem leaveSource_pending (l : RLane) (x : Src) (s : State) :
    (leaveSource l x s).pending = s.pending := by
  simp [leaveSource]

@[simp] theorem leaveSource_rstnLow (l : RLane) (x : Src) (s : State) :
    (leaveSource l x s).rstnLow = s.rstnLow := by
  simp [leaveSource]

@[simp] theorem leaveSource_mem (l : RLane) (x : Src) (s : State) :
    (leaveSource l x s).mem = s.mem := by
  simp [leaveSource]

@[simp] theorem leaveSource_cd (l : RLane) (x : Src) (s : State) :
    (leaveSource l x s).cd = s.cd := by
  simp [leaveSource]

@[simp] theorem leaveSource_attr (l : RLane) (x : Src) (s : State) :
    (leaveSource l x s).attr = s.attr := by
  simp [leaveSource]

@[simp] theorem leaveSource_band (l : RLane) (x : Src) (s : State) :
    (leaveSource l x s).band = s.band := by
  simp [leaveSource]

@[simp] theorem leaveSource_ms (l : RLane) (x : Src) (s : State) :
    (leaveSource l x s).ms = s.ms := by
  simp [leaveSource]

@[simp] theorem leaveSource_tcu (l : RLane) (x : Src) (s : State) :
    (leaveSource l x s).tcu = s.tcu := by
  simp [leaveSource]


/-! ### `claimSlots`: the pool's part of a claim -/

@[simp] theorem claimSlots_pending (l : RLane) (x : Src) (k : Nat) (n : FrameNo) (s : State) :
    (claimSlots l x k n s).pending = s.pending := by
  simp [claimSlots]

@[simp] theorem claimSlots_rstnLow (l : RLane) (x : Src) (k : Nat) (n : FrameNo) (s : State) :
    (claimSlots l x k n s).rstnLow = s.rstnLow := by
  simp [claimSlots]

@[simp] theorem claimSlots_mem (l : RLane) (x : Src) (k : Nat) (n : FrameNo) (s : State) :
    (claimSlots l x k n s).mem = s.mem := by
  simp [claimSlots]

@[simp] theorem claimSlots_il (l : RLane) (x : Src) (k : Nat) (n : FrameNo) (s : State) :
    (claimSlots l x k n s).il = s.il := by
  simp [claimSlots]

@[simp] theorem claimSlots_rl (l : RLane) (x : Src) (k : Nat) (n : FrameNo) (s : State) :
    (claimSlots l x k n s).rl = s.rl := by
  simp [claimSlots]

@[simp] theorem claimSlots_cd (l : RLane) (x : Src) (k : Nat) (n : FrameNo) (s : State) :
    (claimSlots l x k n s).cd = s.cd := by
  simp [claimSlots]

@[simp] theorem claimSlots_attr (l : RLane) (x : Src) (k : Nat) (n : FrameNo) (s : State) :
    (claimSlots l x k n s).attr = s.attr := by
  simp [claimSlots]

@[simp] theorem claimSlots_band (l : RLane) (x : Src) (k : Nat) (n : FrameNo) (s : State) :
    (claimSlots l x k n s).band = s.band := by
  simp [claimSlots]

@[simp] theorem claimSlots_ms (l : RLane) (x : Src) (k : Nat) (n : FrameNo) (s : State) :
    (claimSlots l x k n s).ms = s.ms := by
  simp [claimSlots]

@[simp] theorem claimSlots_tcu (l : RLane) (x : Src) (k : Nat) (n : FrameNo) (s : State) :
    (claimSlots l x k n s).tcu = s.tcu := by
  simp [claimSlots]

@[simp] theorem claimSlots_clr (l : RLane) (x : Src) (k : Nat) (n : FrameNo) (s : State) :
    (claimSlots l x k n s).clr = s.clr := by
  simp [claimSlots]

@[simp] theorem claimSlots_mlu (l : RLane) (x : Src) (k : Nat) (n : FrameNo) (s : State) :
    (claimSlots l x k n s).mlu = s.mlu := by
  simp [claimSlots]


/-! ### `takeFrame`: a claim -/

@[simp] theorem takeFrame_pending (l : RLane) (b : Binding) (k : Nat) (s : State) :
    (takeFrame l b k s).pending = s.pending := by
  unfold takeFrame
  split <;> simp

@[simp] theorem takeFrame_rstnLow (l : RLane) (b : Binding) (k : Nat) (s : State) :
    (takeFrame l b k s).rstnLow = s.rstnLow := by
  unfold takeFrame
  split <;> simp

@[simp] theorem takeFrame_mem (l : RLane) (b : Binding) (k : Nat) (s : State) :
    (takeFrame l b k s).mem = s.mem := by
  unfold takeFrame
  split <;> simp

@[simp] theorem takeFrame_cd (l : RLane) (b : Binding) (k : Nat) (s : State) :
    (takeFrame l b k s).cd = s.cd := by
  unfold takeFrame
  split <;> simp

@[simp] theorem takeFrame_attr (l : RLane) (b : Binding) (k : Nat) (s : State) :
    (takeFrame l b k s).attr = s.attr := by
  unfold takeFrame
  split <;> simp

@[simp] theorem takeFrame_band (l : RLane) (b : Binding) (k : Nat) (s : State) :
    (takeFrame l b k s).band = s.band := by
  unfold takeFrame
  split <;> simp

@[simp] theorem takeFrame_ms (l : RLane) (b : Binding) (k : Nat) (s : State) :
    (takeFrame l b k s).ms = s.ms := by
  unfold takeFrame
  split <;> simp

@[simp] theorem takeFrame_tcu (l : RLane) (b : Binding) (k : Nat) (s : State) :
    (takeFrame l b k s).tcu = s.tcu := by
  unfold takeFrame
  split <;> simp


/-! ### `beginBand`: a band's burst begins -/

@[simp] theorem beginBand_pending (r : Requester) (s : State) :
    (beginBand r s).pending = s.pending := by
  cases r <;> simp [beginBand]

@[simp] theorem beginBand_rstnLow (r : Requester) (s : State) :
    (beginBand r s).rstnLow = s.rstnLow := by
  cases r <;> simp [beginBand]

@[simp] theorem beginBand_mem (r : Requester) (s : State) :
    (beginBand r s).mem = s.mem := by
  cases r <;> simp [beginBand]

@[simp] theorem beginBand_fpc (r : Requester) (s : State) :
    (beginBand r s).fpc = s.fpc := by
  cases r <;> simp [beginBand]

@[simp] theorem beginBand_il (r : Requester) (s : State) :
    (beginBand r s).il = s.il := by
  cases r <;> simp [beginBand]

@[simp] theorem beginBand_cd (r : Requester) (s : State) :
    (beginBand r s).cd = s.cd := by
  cases r <;> simp [beginBand]

@[simp] theorem beginBand_attr (r : Requester) (s : State) :
    (beginBand r s).attr = s.attr := by
  cases r <;> simp [beginBand]

@[simp] theorem beginBand_ms (r : Requester) (s : State) :
    (beginBand r s).ms = s.ms := by
  cases r <;> simp [beginBand]

@[simp] theorem beginBand_tcu (r : Requester) (s : State) :
    (beginBand r s).tcu = s.tcu := by
  cases r <;> simp [beginBand]

@[simp] theorem beginBand_clr (r : Requester) (s : State) :
    (beginBand r s).clr = s.clr := by
  cases r <;> simp [beginBand]

@[simp] theorem beginBand_mlu (r : Requester) (s : State) :
    (beginBand r s).mlu = s.mlu := by
  cases r <;> simp [beginBand]


/-! ### `makeGrant`: a grant choice -/

@[simp] theorem makeGrant_pending  (s : State) :
    (makeGrant s).pending = s.pending := by
  unfold makeGrant
  split
  · split
    · rfl
    · split
      · rfl
      · simp
  · rfl

@[simp] theorem makeGrant_rstnLow  (s : State) :
    (makeGrant s).rstnLow = s.rstnLow := by
  unfold makeGrant
  split
  · split
    · rfl
    · split
      · rfl
      · simp
  · rfl

@[simp] theorem makeGrant_mem  (s : State) :
    (makeGrant s).mem = s.mem := by
  unfold makeGrant
  split
  · split
    · rfl
    · split
      · rfl
      · simp
  · rfl

@[simp] theorem makeGrant_fpc  (s : State) :
    (makeGrant s).fpc = s.fpc := by
  unfold makeGrant
  split
  · split
    · rfl
    · split
      · rfl
      · simp
  · rfl

@[simp] theorem makeGrant_il  (s : State) :
    (makeGrant s).il = s.il := by
  unfold makeGrant
  split
  · split
    · rfl
    · split
      · rfl
      · simp
  · rfl

@[simp] theorem makeGrant_cd  (s : State) :
    (makeGrant s).cd = s.cd := by
  unfold makeGrant
  split
  · split
    · rfl
    · split
      · rfl
      · simp
  · rfl

@[simp] theorem makeGrant_attr  (s : State) :
    (makeGrant s).attr = s.attr := by
  unfold makeGrant
  split
  · split
    · rfl
    · split
      · rfl
      · simp
  · rfl

@[simp] theorem makeGrant_tcu  (s : State) :
    (makeGrant s).tcu = s.tcu := by
  unfold makeGrant
  split
  · split
    · rfl
    · split
      · rfl
      · simp
  · rfl

@[simp] theorem makeGrant_clr  (s : State) :
    (makeGrant s).clr = s.clr := by
  unfold makeGrant
  split
  · split
    · rfl
    · split
      · rfl
      · simp
  · rfl

@[simp] theorem makeGrant_mlu  (s : State) :
    (makeGrant s).mlu = s.mlu := by
  unfold makeGrant
  split
  · split
    · rfl
    · split
      · rfl
      · simp
  · rfl


/-! ### `placeRequest`: a burst request is placed -/

@[simp] theorem placeRequest_pending (r : Requester) (c : Nat) (s : State) :
    (placeRequest r c s).pending = s.pending := by
  simp [placeRequest]

@[simp] theorem placeRequest_rstnLow (r : Requester) (c : Nat) (s : State) :
    (placeRequest r c s).rstnLow = s.rstnLow := by
  simp [placeRequest]

@[simp] theorem placeRequest_mem (r : Requester) (c : Nat) (s : State) :
    (placeRequest r c s).mem = s.mem := by
  simp [placeRequest]

@[simp] theorem placeRequest_fpc (r : Requester) (c : Nat) (s : State) :
    (placeRequest r c s).fpc = s.fpc := by
  simp [placeRequest]

@[simp] theorem placeRequest_il (r : Requester) (c : Nat) (s : State) :
    (placeRequest r c s).il = s.il := by
  simp [placeRequest]

@[simp] theorem placeRequest_cd (r : Requester) (c : Nat) (s : State) :
    (placeRequest r c s).cd = s.cd := by
  simp [placeRequest]

@[simp] theorem placeRequest_attr (r : Requester) (c : Nat) (s : State) :
    (placeRequest r c s).attr = s.attr := by
  simp [placeRequest]

@[simp] theorem placeRequest_tcu (r : Requester) (c : Nat) (s : State) :
    (placeRequest r c s).tcu = s.tcu := by
  simp [placeRequest]

@[simp] theorem placeRequest_clr (r : Requester) (c : Nat) (s : State) :
    (placeRequest r c s).clr = s.clr := by
  simp [placeRequest]

@[simp] theorem placeRequest_mlu (r : Requester) (c : Nat) (s : State) :
    (placeRequest r c s).mlu = s.mlu := by
  simp [placeRequest]


/-! ### `endBurst`: a burst has completed -/

@[simp] theorem endBurst_pending  (s : State) :
    (endBurst s).pending = s.pending := by
  simp [endBurst]

@[simp] theorem endBurst_rstnLow  (s : State) :
    (endBurst s).rstnLow = s.rstnLow := by
  simp [endBurst]

@[simp] theorem endBurst_mem  (s : State) :
    (endBurst s).mem = s.mem := by
  simp [endBurst]

@[simp] theorem endBurst_fpc  (s : State) :
    (endBurst s).fpc = s.fpc := by
  simp [endBurst]

@[simp] theorem endBurst_il  (s : State) :
    (endBurst s).il = s.il := by
  simp [endBurst]

@[simp] theorem endBurst_cd  (s : State) :
    (endBurst s).cd = s.cd := by
  simp [endBurst]

@[simp] theorem endBurst_attr  (s : State) :
    (endBurst s).attr = s.attr := by
  simp [endBurst]

@[simp] theorem endBurst_tcu  (s : State) :
    (endBurst s).tcu = s.tcu := by
  simp [endBurst]

@[simp] theorem endBurst_clr  (s : State) :
    (endBurst s).clr = s.clr := by
  simp [endBurst]

@[simp] theorem endBurst_mlu  (s : State) :
    (endBurst s).mlu = s.mlu := by
  simp [endBurst]


/-! ### `startAnalysis`: an analysis starts -/

@[simp] theorem startAnalysis_pending  (s : State) :
    (startAnalysis s).pending = s.pending := by
  unfold startAnalysis
  split
  · split <;> simp
  · rfl

@[simp] theorem startAnalysis_rstnLow  (s : State) :
    (startAnalysis s).rstnLow = s.rstnLow := by
  unfold startAnalysis
  split
  · split <;> simp
  · rfl

@[simp] theorem startAnalysis_mem  (s : State) :
    (startAnalysis s).mem = s.mem := by
  unfold startAnalysis
  split
  · split <;> simp
  · rfl

@[simp] theorem startAnalysis_il  (s : State) :
    (startAnalysis s).il = s.il := by
  unfold startAnalysis
  split
  · split <;> simp
  · rfl

@[simp] theorem startAnalysis_attr  (s : State) :
    (startAnalysis s).attr = s.attr := by
  unfold startAnalysis
  split
  · split <;> simp
  · rfl

@[simp] theorem startAnalysis_tcu  (s : State) :
    (startAnalysis s).tcu = s.tcu := by
  unfold startAnalysis
  split
  · split <;> simp
  · rfl

@[simp] theorem startAnalysis_clr  (s : State) :
    (startAnalysis s).clr = s.clr := by
  unfold startAnalysis
  split
  · split <;> simp
  · rfl

@[simp] theorem startAnalysis_mlu  (s : State) :
    (startAnalysis s).mlu = s.mlu := by
  unfold startAnalysis
  split
  · split <;> simp
  · rfl


/-! ### `sendReady`: READY notices -/

@[simp] theorem sendReady_pending (k : Nat) (s : State) :
    (sendReady k s).pending = s.pending := by
  unfold sendReady
  split
  · exact foldl_keep (fun t : State => t.pending) _ (fun s l => by split <;> simp) _ _
  · rfl

@[simp] theorem sendReady_rstnLow (k : Nat) (s : State) :
    (sendReady k s).rstnLow = s.rstnLow := by
  unfold sendReady
  split
  · exact foldl_keep (fun t : State => t.rstnLow) _ (fun s l => by split <;> simp) _ _
  · rfl

@[simp] theorem sendReady_mem (k : Nat) (s : State) :
    (sendReady k s).mem = s.mem := by
  unfold sendReady
  split
  · exact foldl_keep (fun t : State => t.mem) _ (fun s l => by split <;> simp) _ _
  · rfl

@[simp] theorem sendReady_fpc (k : Nat) (s : State) :
    (sendReady k s).fpc = s.fpc := by
  unfold sendReady
  split
  · exact foldl_keep (fun t : State => t.fpc) _ (fun s l => by split <;> simp) _ _
  · rfl

@[simp] theorem sendReady_il (k : Nat) (s : State) :
    (sendReady k s).il = s.il := by
  unfold sendReady
  split
  · exact foldl_keep (fun t : State => t.il) _ (fun s l => by split <;> simp) _ _
  · rfl

@[simp] theorem sendReady_cd (k : Nat) (s : State) :
    (sendReady k s).cd = s.cd := by
  unfold sendReady
  split
  · exact foldl_keep (fun t : State => t.cd) _ (fun s l => by split <;> simp) _ _
  · rfl

@[simp] theorem sendReady_attr (k : Nat) (s : State) :
    (sendReady k s).attr = s.attr := by
  unfold sendReady
  split
  · exact foldl_keep (fun t : State => t.attr) _ (fun s l => by split <;> simp) _ _
  · rfl

@[simp] theorem sendReady_band (k : Nat) (s : State) :
    (sendReady k s).band = s.band := by
  unfold sendReady
  split
  · exact foldl_keep (fun t : State => t.band) _ (fun s l => by split <;> simp) _ _
  · rfl

@[simp] theorem sendReady_ms (k : Nat) (s : State) :
    (sendReady k s).ms = s.ms := by
  unfold sendReady
  split
  · exact foldl_keep (fun t : State => t.ms) _ (fun s l => by split <;> simp) _ _
  · rfl

@[simp] theorem sendReady_tcu (k : Nat) (s : State) :
    (sendReady k s).tcu = s.tcu := by
  unfold sendReady
  split
  · exact foldl_keep (fun t : State => t.tcu) _ (fun s l => by split <;> simp) _ _
  · rfl

@[simp] theorem sendReady_clr (k : Nat) (s : State) :
    (sendReady k s).clr = s.clr := by
  unfold sendReady
  split
  · exact foldl_keep (fun t : State => t.clr) _ (fun s l => by split <;> simp) _ _
  · rfl

@[simp] theorem sendReady_mlu (k : Nat) (s : State) :
    (sendReady k s).mlu = s.mlu := by
  unfold sendReady
  split
  · exact foldl_keep (fun t : State => t.mlu) _ (fun s l => by split <;> simp) _ _
  · rfl


/-! ### `supersede`: a frame becomes CURRENT -/

@[simp] theorem supersede_pending (x : Src) (k : Nat) (f : SealedFrame) (v : Verdict) (s : State) :
    (supersede x k f v s).pending = s.pending := by
  unfold supersede
  dsimp only
  split
  · split <;> simp
  · simp

@[simp] theorem supersede_rstnLow (x : Src) (k : Nat) (f : SealedFrame) (v : Verdict) (s : State) :
    (supersede x k f v s).rstnLow = s.rstnLow := by
  unfold supersede
  dsimp only
  split
  · split <;> simp
  · simp

@[simp] theorem supersede_mem (x : Src) (k : Nat) (f : SealedFrame) (v : Verdict) (s : State) :
    (supersede x k f v s).mem = s.mem := by
  unfold supersede
  dsimp only
  split
  · split <;> simp
  · simp

@[simp] theorem supersede_il (x : Src) (k : Nat) (f : SealedFrame) (v : Verdict) (s : State) :
    (supersede x k f v s).il = s.il := by
  unfold supersede
  dsimp only
  split
  · split <;> simp
  · simp

@[simp] theorem supersede_rl (x : Src) (k : Nat) (f : SealedFrame) (v : Verdict) (s : State) :
    (supersede x k f v s).rl = s.rl := by
  unfold supersede
  dsimp only
  split
  · split <;> simp
  · simp

@[simp] theorem supersede_cd (x : Src) (k : Nat) (f : SealedFrame) (v : Verdict) (s : State) :
    (supersede x k f v s).cd = s.cd := by
  unfold supersede
  dsimp only
  split
  · split <;> simp
  · simp

@[simp] theorem supersede_attr (x : Src) (k : Nat) (f : SealedFrame) (v : Verdict) (s : State) :
    (supersede x k f v s).attr = s.attr := by
  unfold supersede
  dsimp only
  split
  · split <;> simp
  · simp

@[simp] theorem supersede_band (x : Src) (k : Nat) (f : SealedFrame) (v : Verdict) (s : State) :
    (supersede x k f v s).band = s.band := by
  unfold supersede
  dsimp only
  split
  · split <;> simp
  · simp

@[simp] theorem supersede_ms (x : Src) (k : Nat) (f : SealedFrame) (v : Verdict) (s : State) :
    (supersede x k f v s).ms = s.ms := by
  unfold supersede
  dsimp only
  split
  · split <;> simp
  · simp

@[simp] theorem supersede_tcu (x : Src) (k : Nat) (f : SealedFrame) (v : Verdict) (s : State) :
    (supersede x k f v s).tcu = s.tcu := by
  unfold supersede
  dsimp only
  split
  · split <;> simp
  · simp

@[simp] theorem supersede_clr (x : Src) (k : Nat) (f : SealedFrame) (v : Verdict) (s : State) :
    (supersede x k f v s).clr = s.clr := by
  unfold supersede
  dsimp only
  split
  · split <;> simp
  · simp

@[simp] theorem supersede_mlu (x : Src) (k : Nat) (f : SealedFrame) (v : Verdict) (s : State) :
    (supersede x k f v s).mlu = s.mlu := by
  unfold supersede
  dsimp only
  split
  · split <;> simp
  · simp


/-! ### `servePendingClaims`: pending claims take the new frame -/

@[simp] theorem servePendingClaims_pending (x : Src) (k : Nat) (s : State) :
    (servePendingClaims x k s).pending = s.pending := by
  refine foldl_keep (fun t : State => t.pending) _ (fun s l => ?_) _ _
  split
  · split <;> simp
  · rfl

@[simp] theorem servePendingClaims_rstnLow (x : Src) (k : Nat) (s : State) :
    (servePendingClaims x k s).rstnLow = s.rstnLow := by
  refine foldl_keep (fun t : State => t.rstnLow) _ (fun s l => ?_) _ _
  split
  · split <;> simp
  · rfl

@[simp] theorem servePendingClaims_mem (x : Src) (k : Nat) (s : State) :
    (servePendingClaims x k s).mem = s.mem := by
  refine foldl_keep (fun t : State => t.mem) _ (fun s l => ?_) _ _
  split
  · split <;> simp
  · rfl

@[simp] theorem servePendingClaims_cd (x : Src) (k : Nat) (s : State) :
    (servePendingClaims x k s).cd = s.cd := by
  refine foldl_keep (fun t : State => t.cd) _ (fun s l => ?_) _ _
  split
  · split <;> simp
  · rfl

@[simp] theorem servePendingClaims_attr (x : Src) (k : Nat) (s : State) :
    (servePendingClaims x k s).attr = s.attr := by
  refine foldl_keep (fun t : State => t.attr) _ (fun s l => ?_) _ _
  split
  · split <;> simp
  · rfl

@[simp] theorem servePendingClaims_band (x : Src) (k : Nat) (s : State) :
    (servePendingClaims x k s).band = s.band := by
  refine foldl_keep (fun t : State => t.band) _ (fun s l => ?_) _ _
  split
  · split <;> simp
  · rfl

@[simp] theorem servePendingClaims_ms (x : Src) (k : Nat) (s : State) :
    (servePendingClaims x k s).ms = s.ms := by
  refine foldl_keep (fun t : State => t.ms) _ (fun s l => ?_) _ _
  split
  · split <;> simp
  · rfl

@[simp] theorem servePendingClaims_tcu (x : Src) (k : Nat) (s : State) :
    (servePendingClaims x k s).tcu = s.tcu := by
  refine foldl_keep (fun t : State => t.tcu) _ (fun s l => ?_) _ _
  split
  · split <;> simp
  · rfl


/-! ### `completeFrame`: the pool's completion -/

@[simp] theorem completeFrame_pending (k : Nat) (f : SealedFrame) (v : Verdict) (s : State) :
    (completeFrame k f v s).pending = s.pending := by
  unfold completeFrame
  dsimp only
  repeat' split
  all_goals simp

@[simp] theorem completeFrame_rstnLow (k : Nat) (f : SealedFrame) (v : Verdict) (s : State) :
    (completeFrame k f v s).rstnLow = s.rstnLow := by
  unfold completeFrame
  dsimp only
  repeat' split
  all_goals simp

@[simp] theorem completeFrame_mem (k : Nat) (f : SealedFrame) (v : Verdict) (s : State) :
    (completeFrame k f v s).mem = s.mem := by
  unfold completeFrame
  dsimp only
  repeat' split
  all_goals simp

@[simp] theorem completeFrame_cd (k : Nat) (f : SealedFrame) (v : Verdict) (s : State) :
    (completeFrame k f v s).cd = s.cd := by
  unfold completeFrame
  dsimp only
  repeat' split
  all_goals simp

@[simp] theorem completeFrame_attr (k : Nat) (f : SealedFrame) (v : Verdict) (s : State) :
    (completeFrame k f v s).attr = s.attr := by
  unfold completeFrame
  dsimp only
  repeat' split
  all_goals simp

@[simp] theorem completeFrame_band (k : Nat) (f : SealedFrame) (v : Verdict) (s : State) :
    (completeFrame k f v s).band = s.band := by
  unfold completeFrame
  dsimp only
  repeat' split
  all_goals simp

@[simp] theorem completeFrame_ms (k : Nat) (f : SealedFrame) (v : Verdict) (s : State) :
    (completeFrame k f v s).ms = s.ms := by
  unfold completeFrame
  dsimp only
  repeat' split
  all_goals simp

@[simp] theorem completeFrame_tcu (k : Nat) (f : SealedFrame) (v : Verdict) (s : State) :
    (completeFrame k f v s).tcu = s.tcu := by
  unfold completeFrame
  dsimp only
  repeat' split
  all_goals simp


/-! ### `completeAnalysis`: an analysis completes -/

@[simp] theorem completeAnalysis_pending (c : AnalysisCtx) (s : State) :
    (completeAnalysis c s).pending = s.pending := by
  unfold completeAnalysis
  dsimp only
  split <;> simp

@[simp] theorem completeAnalysis_rstnLow (c : AnalysisCtx) (s : State) :
    (completeAnalysis c s).rstnLow = s.rstnLow := by
  unfold completeAnalysis
  dsimp only
  split <;> simp

@[simp] theorem completeAnalysis_mem (c : AnalysisCtx) (s : State) :
    (completeAnalysis c s).mem = s.mem := by
  unfold completeAnalysis
  dsimp only
  split <;> simp

@[simp] theorem completeAnalysis_attr (c : AnalysisCtx) (s : State) :
    (completeAnalysis c s).attr = s.attr := by
  unfold completeAnalysis
  dsimp only
  split <;> simp


/-! ### `rowStep`: a row is measured -/

@[simp] theorem rowStep_pending (c : AnalysisCtx) (s : State) :
    (rowStep c s).pending = s.pending := by
  unfold rowStep
  dsimp only
  split <;> simp

@[simp] theorem rowStep_rstnLow (c : AnalysisCtx) (s : State) :
    (rowStep c s).rstnLow = s.rstnLow := by
  unfold rowStep
  dsimp only
  split <;> simp

@[simp] theorem rowStep_mem (c : AnalysisCtx) (s : State) :
    (rowStep c s).mem = s.mem := by
  unfold rowStep
  dsimp only
  split <;> simp

@[simp] theorem rowStep_attr (c : AnalysisCtx) (s : State) :
    (rowStep c s).attr = s.attr := by
  unfold rowStep
  dsimp only
  split <;> simp


/-! ### `sealSlot`: a slot is sealed -/

@[simp] theorem sealSlot_pending (x : Src) (k : Nat) (y : Src) (p : Pts) (s : State) :
    (sealSlot x k y p s).pending = s.pending := by
  simp [sealSlot]

@[simp] theorem sealSlot_rstnLow (x : Src) (k : Nat) (y : Src) (p : Pts) (s : State) :
    (sealSlot x k y p s).rstnLow = s.rstnLow := by
  simp [sealSlot]

@[simp] theorem sealSlot_mem (x : Src) (k : Nat) (y : Src) (p : Pts) (s : State) :
    (sealSlot x k y p s).mem = s.mem := by
  simp [sealSlot]

@[simp] theorem sealSlot_attr (x : Src) (k : Nat) (y : Src) (p : Pts) (s : State) :
    (sealSlot x k y p s).attr = s.attr := by
  simp [sealSlot]

@[simp] theorem sealSlot_clr (x : Src) (k : Nat) (y : Src) (p : Pts) (s : State) :
    (sealSlot x k y p s).clr = s.clr := by
  simp [sealSlot]

@[simp] theorem sealSlot_mlu (x : Src) (k : Nat) (y : Src) (p : Pts) (s : State) :
    (sealSlot x k y p s).mlu = s.mlu := by
  simp [sealSlot]


/-! ### `finishRow`: a tile row has been written -/

@[simp] theorem finishRow_pending (x : Src) (s : State) :
    (finishRow x s).pending = s.pending := by
  unfold finishRow
  split
  · rfl
  · simp

@[simp] theorem finishRow_rstnLow (x : Src) (s : State) :
    (finishRow x s).rstnLow = s.rstnLow := by
  unfold finishRow
  split
  · rfl
  · simp

@[simp] theorem finishRow_mem (x : Src) (s : State) :
    (finishRow x s).mem = s.mem := by
  unfold finishRow
  split
  · rfl
  · simp

@[simp] theorem finishRow_cd (x : Src) (s : State) :
    (finishRow x s).cd = s.cd := by
  unfold finishRow
  split
  · rfl
  · simp

@[simp] theorem finishRow_attr (x : Src) (s : State) :
    (finishRow x s).attr = s.attr := by
  unfold finishRow
  split
  · rfl
  · simp

@[simp] theorem finishRow_band (x : Src) (s : State) :
    (finishRow x s).band = s.band := by
  unfold finishRow
  split
  · rfl
  · simp

@[simp] theorem finishRow_ms (x : Src) (s : State) :
    (finishRow x s).ms = s.ms := by
  unfold finishRow
  split
  · rfl
  · simp

@[simp] theorem finishRow_tcu (x : Src) (s : State) :
    (finishRow x s).tcu = s.tcu := by
  unfold finishRow
  split
  · rfl
  · simp

@[simp] theorem finishRow_clr (x : Src) (s : State) :
    (finishRow x s).clr = s.clr := by
  unfold finishRow
  split
  · rfl
  · simp

@[simp] theorem finishRow_mlu (x : Src) (s : State) :
    (finishRow x s).mlu = s.mlu := by
  unfold finishRow
  split
  · rfl
  · simp


/-! ### `waitOrDrop`: an open that cannot be served at once -/

@[simp] theorem waitOrDrop_pending (x : Src) (t : Byte) (p : Pts) (s : State) :
    (waitOrDrop x t p s).pending = s.pending := by
  unfold waitOrDrop
  dsimp only
  split <;> simp

@[simp] theorem waitOrDrop_rstnLow (x : Src) (t : Byte) (p : Pts) (s : State) :
    (waitOrDrop x t p s).rstnLow = s.rstnLow := by
  unfold waitOrDrop
  dsimp only
  split <;> simp

@[simp] theorem waitOrDrop_mem (x : Src) (t : Byte) (p : Pts) (s : State) :
    (waitOrDrop x t p s).mem = s.mem := by
  unfold waitOrDrop
  dsimp only
  split <;> simp

@[simp] theorem waitOrDrop_cd (x : Src) (t : Byte) (p : Pts) (s : State) :
    (waitOrDrop x t p s).cd = s.cd := by
  unfold waitOrDrop
  dsimp only
  split <;> simp

@[simp] theorem waitOrDrop_attr (x : Src) (t : Byte) (p : Pts) (s : State) :
    (waitOrDrop x t p s).attr = s.attr := by
  unfold waitOrDrop
  dsimp only
  split <;> simp

@[simp] theorem waitOrDrop_band (x : Src) (t : Byte) (p : Pts) (s : State) :
    (waitOrDrop x t p s).band = s.band := by
  unfold waitOrDrop
  dsimp only
  split <;> simp

@[simp] theorem waitOrDrop_ms (x : Src) (t : Byte) (p : Pts) (s : State) :
    (waitOrDrop x t p s).ms = s.ms := by
  unfold waitOrDrop
  dsimp only
  split <;> simp

@[simp] theorem waitOrDrop_tcu (x : Src) (t : Byte) (p : Pts) (s : State) :
    (waitOrDrop x t p s).tcu = s.tcu := by
  unfold waitOrDrop
  dsimp only
  split <;> simp


/-! ### `sendRepeats`: REPEAT notices -/

@[simp] theorem sendRepeats_pending (x : Src) (n : FrameNo) (c : Count16) (s : State) :
    (sendRepeats x n c s).pending = s.pending := by
  exact foldl_keep (fun t : State => t.pending) _ (fun s l => by split <;> simp) _ _

@[simp] theorem sendRepeats_rstnLow (x : Src) (n : FrameNo) (c : Count16) (s : State) :
    (sendRepeats x n c s).rstnLow = s.rstnLow := by
  exact foldl_keep (fun t : State => t.rstnLow) _ (fun s l => by split <;> simp) _ _

@[simp] theorem sendRepeats_mem (x : Src) (n : FrameNo) (c : Count16) (s : State) :
    (sendRepeats x n c s).mem = s.mem := by
  exact foldl_keep (fun t : State => t.mem) _ (fun s l => by split <;> simp) _ _

@[simp] theorem sendRepeats_fpc (x : Src) (n : FrameNo) (c : Count16) (s : State) :
    (sendRepeats x n c s).fpc = s.fpc := by
  exact foldl_keep (fun t : State => t.fpc) _ (fun s l => by split <;> simp) _ _

@[simp] theorem sendRepeats_il (x : Src) (n : FrameNo) (c : Count16) (s : State) :
    (sendRepeats x n c s).il = s.il := by
  exact foldl_keep (fun t : State => t.il) _ (fun s l => by split <;> simp) _ _

@[simp] theorem sendRepeats_cd (x : Src) (n : FrameNo) (c : Count16) (s : State) :
    (sendRepeats x n c s).cd = s.cd := by
  exact foldl_keep (fun t : State => t.cd) _ (fun s l => by split <;> simp) _ _

@[simp] theorem sendRepeats_attr (x : Src) (n : FrameNo) (c : Count16) (s : State) :
    (sendRepeats x n c s).attr = s.attr := by
  exact foldl_keep (fun t : State => t.attr) _ (fun s l => by split <;> simp) _ _

@[simp] theorem sendRepeats_band (x : Src) (n : FrameNo) (c : Count16) (s : State) :
    (sendRepeats x n c s).band = s.band := by
  exact foldl_keep (fun t : State => t.band) _ (fun s l => by split <;> simp) _ _

@[simp] theorem sendRepeats_ms (x : Src) (n : FrameNo) (c : Count16) (s : State) :
    (sendRepeats x n c s).ms = s.ms := by
  exact foldl_keep (fun t : State => t.ms) _ (fun s l => by split <;> simp) _ _

@[simp] theorem sendRepeats_tcu (x : Src) (n : FrameNo) (c : Count16) (s : State) :
    (sendRepeats x n c s).tcu = s.tcu := by
  exact foldl_keep (fun t : State => t.tcu) _ (fun s l => by split <;> simp) _ _

@[simp] theorem sendRepeats_clr (x : Src) (n : FrameNo) (c : Count16) (s : State) :
    (sendRepeats x n c s).clr = s.clr := by
  exact foldl_keep (fun t : State => t.clr) _ (fun s l => by split <;> simp) _ _

@[simp] theorem sendRepeats_mlu (x : Src) (n : FrameNo) (c : Count16) (s : State) :
    (sendRepeats x n c s).mlu = s.mlu := by
  exact foldl_keep (fun t : State => t.mlu) _ (fun s l => by split <;> simp) _ _


/-! ### `checkStall`: the stall check -/

@[simp] theorem checkStall_pending (x : Src) (n : FrameNo) (s : State) :
    (checkStall x n s).pending = s.pending := by
  unfold checkStall
  dsimp only
  split <;> simp

@[simp] theorem checkStall_rstnLow (x : Src) (n : FrameNo) (s : State) :
    (checkStall x n s).rstnLow = s.rstnLow := by
  unfold checkStall
  dsimp only
  split <;> simp

@[simp] theorem checkStall_mem (x : Src) (n : FrameNo) (s : State) :
    (checkStall x n s).mem = s.mem := by
  unfold checkStall
  dsimp only
  split <;> simp

@[simp] theorem checkStall_fpc (x : Src) (n : FrameNo) (s : State) :
    (checkStall x n s).fpc = s.fpc := by
  unfold checkStall
  dsimp only
  split <;> simp

@[simp] theorem checkStall_il (x : Src) (n : FrameNo) (s : State) :
    (checkStall x n s).il = s.il := by
  unfold checkStall
  dsimp only
  split <;> simp

@[simp] theorem checkStall_cd (x : Src) (n : FrameNo) (s : State) :
    (checkStall x n s).cd = s.cd := by
  unfold checkStall
  dsimp only
  split <;> simp

@[simp] theorem checkStall_attr (x : Src) (n : FrameNo) (s : State) :
    (checkStall x n s).attr = s.attr := by
  unfold checkStall
  dsimp only
  split <;> simp

@[simp] theorem checkStall_band (x : Src) (n : FrameNo) (s : State) :
    (checkStall x n s).band = s.band := by
  unfold checkStall
  dsimp only
  split <;> simp

@[simp] theorem checkStall_ms (x : Src) (n : FrameNo) (s : State) :
    (checkStall x n s).ms = s.ms := by
  unfold checkStall
  dsimp only
  split <;> simp

@[simp] theorem checkStall_mlu (x : Src) (n : FrameNo) (s : State) :
    (checkStall x n s).mlu = s.mlu := by
  unfold checkStall
  dsimp only
  split <;> simp


/-! ### `repeatFrame`: a cadence expiry of a source with a CURRENT frame -/

@[simp] theorem repeatFrame_pending (x : Src) (n : FrameNo) (s : State) :
    (repeatFrame x n s).pending = s.pending := by
  simp [repeatFrame]

@[simp] theorem repeatFrame_rstnLow (x : Src) (n : FrameNo) (s : State) :
    (repeatFrame x n s).rstnLow = s.rstnLow := by
  simp [repeatFrame]

@[simp] theorem repeatFrame_mem (x : Src) (n : FrameNo) (s : State) :
    (repeatFrame x n s).mem = s.mem := by
  simp [repeatFrame]

@[simp] theorem repeatFrame_fpc (x : Src) (n : FrameNo) (s : State) :
    (repeatFrame x n s).fpc = s.fpc := by
  simp [repeatFrame]

@[simp] theorem repeatFrame_il (x : Src) (n : FrameNo) (s : State) :
    (repeatFrame x n s).il = s.il := by
  simp [repeatFrame]

@[simp] theorem repeatFrame_cd (x : Src) (n : FrameNo) (s : State) :
    (repeatFrame x n s).cd = s.cd := by
  simp [repeatFrame]

@[simp] theorem repeatFrame_attr (x : Src) (n : FrameNo) (s : State) :
    (repeatFrame x n s).attr = s.attr := by
  simp [repeatFrame]

@[simp] theorem repeatFrame_band (x : Src) (n : FrameNo) (s : State) :
    (repeatFrame x n s).band = s.band := by
  simp [repeatFrame]

@[simp] theorem repeatFrame_ms (x : Src) (n : FrameNo) (s : State) :
    (repeatFrame x n s).ms = s.ms := by
  simp [repeatFrame]


/-! ### `captureCue`: an accepted cue edge -/

@[simp] theorem captureCue_pending  (s : State) :
    (captureCue s).pending = s.pending := by
  unfold captureCue
  dsimp only
  split <;> simp

@[simp] theorem captureCue_rstnLow  (s : State) :
    (captureCue s).rstnLow = s.rstnLow := by
  unfold captureCue
  dsimp only
  split <;> simp

@[simp] theorem captureCue_mem  (s : State) :
    (captureCue s).mem = s.mem := by
  unfold captureCue
  dsimp only
  split <;> simp

@[simp] theorem captureCue_fpc  (s : State) :
    (captureCue s).fpc = s.fpc := by
  unfold captureCue
  dsimp only
  split <;> simp

@[simp] theorem captureCue_il  (s : State) :
    (captureCue s).il = s.il := by
  unfold captureCue
  dsimp only
  split <;> simp

@[simp] theorem captureCue_cd  (s : State) :
    (captureCue s).cd = s.cd := by
  unfold captureCue
  dsimp only
  split <;> simp

@[simp] theorem captureCue_attr  (s : State) :
    (captureCue s).attr = s.attr := by
  unfold captureCue
  dsimp only
  split <;> simp

@[simp] theorem captureCue_band  (s : State) :
    (captureCue s).band = s.band := by
  unfold captureCue
  dsimp only
  split <;> simp

@[simp] theorem captureCue_ms  (s : State) :
    (captureCue s).ms = s.ms := by
  unfold captureCue
  dsimp only
  split <;> simp

@[simp] theorem captureCue_mlu  (s : State) :
    (captureCue s).mlu = s.mlu := by
  unfold captureCue
  dsimp only
  split <;> simp


/-! ### `dropRequests`: a lane's burst request is dropped -/

@[simp] theorem dropRequests_pending (r : Requester) (s : State) :
    (dropRequests r s).pending = s.pending := by
  rfl

@[simp] theorem dropRequests_rstnLow (r : Requester) (s : State) :
    (dropRequests r s).rstnLow = s.rstnLow := by
  rfl

@[simp] theorem dropRequests_mem (r : Requester) (s : State) :
    (dropRequests r s).mem = s.mem := by
  rfl

@[simp] theorem dropRequests_fpc (r : Requester) (s : State) :
    (dropRequests r s).fpc = s.fpc := by
  rfl

@[simp] theorem dropRequests_il (r : Requester) (s : State) :
    (dropRequests r s).il = s.il := by
  rfl

@[simp] theorem dropRequests_rl (r : Requester) (s : State) :
    (dropRequests r s).rl = s.rl := by
  rfl

@[simp] theorem dropRequests_cd (r : Requester) (s : State) :
    (dropRequests r s).cd = s.cd := by
  rfl

@[simp] theorem dropRequests_attr (r : Requester) (s : State) :
    (dropRequests r s).attr = s.attr := by
  rfl

@[simp] theorem dropRequests_band (r : Requester) (s : State) :
    (dropRequests r s).band = s.band := by
  rfl

@[simp] theorem dropRequests_tcu (r : Requester) (s : State) :
    (dropRequests r s).tcu = s.tcu := by
  rfl

@[simp] theorem dropRequests_clr (r : Requester) (s : State) :
    (dropRequests r s).clr = s.clr := by
  rfl

@[simp] theorem dropRequests_mlu (r : Requester) (s : State) :
    (dropRequests r s).mlu = s.mlu := by
  rfl


/-! ### `resetIngestLane`: a reset of an ingest lane -/

@[simp] theorem resetIngestLane_pending (x : Src) (s : State) :
    (resetIngestLane x s).pending = s.pending := by
  unfold resetIngestLane
  dsimp only
  split <;> simp

@[simp] theorem resetIngestLane_rstnLow (x : Src) (s : State) :
    (resetIngestLane x s).rstnLow = s.rstnLow := by
  unfold resetIngestLane
  dsimp only
  split <;> simp

@[simp] theorem resetIngestLane_mem (x : Src) (s : State) :
    (resetIngestLane x s).mem = s.mem := by
  unfold resetIngestLane
  dsimp only
  split <;> simp

@[simp] theorem resetIngestLane_cd (x : Src) (s : State) :
    (resetIngestLane x s).cd = s.cd := by
  unfold resetIngestLane
  dsimp only
  split <;> simp

@[simp] theorem resetIngestLane_attr (x : Src) (s : State) :
    (resetIngestLane x s).attr = s.attr := by
  unfold resetIngestLane
  dsimp only
  split <;> simp

@[simp] theorem resetIngestLane_band (x : Src) (s : State) :
    (resetIngestLane x s).band = s.band := by
  unfold resetIngestLane
  dsimp only
  split <;> simp

@[simp] theorem resetIngestLane_tcu (x : Src) (s : State) :
    (resetIngestLane x s).tcu = s.tcu := by
  unfold resetIngestLane
  dsimp only
  split <;> simp


/-! ### `resetRenditionLane`: a reset of a rendition lane -/

@[simp] theorem resetRenditionLane_pending (l : RLane) (s : State) :
    (resetRenditionLane l s).pending = s.pending := by
  simp [resetRenditionLane]

@[simp] theorem resetRenditionLane_rstnLow (l : RLane) (s : State) :
    (resetRenditionLane l s).rstnLow = s.rstnLow := by
  simp [resetRenditionLane]

@[simp] theorem resetRenditionLane_mem (l : RLane) (s : State) :
    (resetRenditionLane l s).mem = s.mem := by
  simp [resetRenditionLane]

@[simp] theorem resetRenditionLane_cd (l : RLane) (s : State) :
    (resetRenditionLane l s).cd = s.cd := by
  simp [resetRenditionLane]

@[simp] theorem resetRenditionLane_attr (l : RLane) (s : State) :
    (resetRenditionLane l s).attr = s.attr := by
  simp [resetRenditionLane]

@[simp] theorem resetRenditionLane_band (l : RLane) (s : State) :
    (resetRenditionLane l s).band = s.band := by
  simp [resetRenditionLane]

@[simp] theorem resetRenditionLane_tcu (l : RLane) (s : State) :
    (resetRenditionLane l s).tcu = s.tcu := by
  simp [resetRenditionLane]


/-! ### `resetLane`: a reset of a lane -/

@[simp] theorem resetLane_pending (lane : Lane) (s : State) :
    (resetLane lane s).pending = s.pending := by
  cases lane <;> simp [resetLane]

@[simp] theorem resetLane_rstnLow (lane : Lane) (s : State) :
    (resetLane lane s).rstnLow = s.rstnLow := by
  cases lane <;> simp [resetLane]

@[simp] theorem resetLane_mem (lane : Lane) (s : State) :
    (resetLane lane s).mem = s.mem := by
  cases lane <;> simp [resetLane]

@[simp] theorem resetLane_cd (lane : Lane) (s : State) :
    (resetLane lane s).cd = s.cd := by
  cases lane <;> simp [resetLane]

@[simp] theorem resetLane_attr (lane : Lane) (s : State) :
    (resetLane lane s).attr = s.attr := by
  cases lane <;> simp [resetLane]

@[simp] theorem resetLane_band (lane : Lane) (s : State) :
    (resetLane lane s).band = s.band := by
  cases lane <;> simp [resetLane]

@[simp] theorem resetLane_tcu (lane : Lane) (s : State) :
    (resetLane lane s).tcu = s.tcu := by
  cases lane <;> simp [resetLane]


/-! ### `queueRequest`: a good record arrives -/

@[simp] theorem queueRequest_pending (lane : Lane) (r : Request) (s : State) :
    (queueRequest lane r s).pending = s.pending := by
  unfold queueRequest
  dsimp only
  split <;> simp

@[simp] theorem queueRequest_rstnLow (lane : Lane) (r : Request) (s : State) :
    (queueRequest lane r s).rstnLow = s.rstnLow := by
  unfold queueRequest
  dsimp only
  split <;> simp

@[simp] theorem queueRequest_mem (lane : Lane) (r : Request) (s : State) :
    (queueRequest lane r s).mem = s.mem := by
  unfold queueRequest
  dsimp only
  split <;> simp

@[simp] theorem queueRequest_fpc (lane : Lane) (r : Request) (s : State) :
    (queueRequest lane r s).fpc = s.fpc := by
  unfold queueRequest
  dsimp only
  split <;> simp

@[simp] theorem queueRequest_cd (lane : Lane) (r : Request) (s : State) :
    (queueRequest lane r s).cd = s.cd := by
  unfold queueRequest
  dsimp only
  split <;> simp

@[simp] theorem queueRequest_attr (lane : Lane) (r : Request) (s : State) :
    (queueRequest lane r s).attr = s.attr := by
  unfold queueRequest
  dsimp only
  split <;> simp

@[simp] theorem queueRequest_band (lane : Lane) (r : Request) (s : State) :
    (queueRequest lane r s).band = s.band := by
  unfold queueRequest
  dsimp only
  split <;> simp

@[simp] theorem queueRequest_ms (lane : Lane) (r : Request) (s : State) :
    (queueRequest lane r s).ms = s.ms := by
  unfold queueRequest
  dsimp only
  split <;> simp

@[simp] theorem queueRequest_tcu (lane : Lane) (r : Request) (s : State) :
    (queueRequest lane r s).tcu = s.tcu := by
  unfold queueRequest
  dsimp only
  split <;> simp

@[simp] theorem queueRequest_clr (lane : Lane) (r : Request) (s : State) :
    (queueRequest lane r s).clr = s.clr := by
  unfold queueRequest
  dsimp only
  split <;> simp

@[simp] theorem queueRequest_mlu (lane : Lane) (r : Request) (s : State) :
    (queueRequest lane r s).mlu = s.mlu := by
  unfold queueRequest
  dsimp only
  split <;> simp


/-! ### `countBadRecord`: a bad record arrives -/

@[simp] theorem countBadRecord_pending (lane : Lane) (s : State) :
    (countBadRecord lane s).pending = s.pending := by
  unfold countBadRecord
  dsimp only
  split <;> simp

@[simp] theorem countBadRecord_rstnLow (lane : Lane) (s : State) :
    (countBadRecord lane s).rstnLow = s.rstnLow := by
  unfold countBadRecord
  dsimp only
  split <;> simp

@[simp] theorem countBadRecord_mem (lane : Lane) (s : State) :
    (countBadRecord lane s).mem = s.mem := by
  unfold countBadRecord
  dsimp only
  split <;> simp

@[simp] theorem countBadRecord_cd (lane : Lane) (s : State) :
    (countBadRecord lane s).cd = s.cd := by
  unfold countBadRecord
  dsimp only
  split <;> simp

@[simp] theorem countBadRecord_attr (lane : Lane) (s : State) :
    (countBadRecord lane s).attr = s.attr := by
  unfold countBadRecord
  dsimp only
  split <;> simp

@[simp] theorem countBadRecord_band (lane : Lane) (s : State) :
    (countBadRecord lane s).band = s.band := by
  unfold countBadRecord
  dsimp only
  split <;> simp

@[simp] theorem countBadRecord_tcu (lane : Lane) (s : State) :
    (countBadRecord lane s).tcu = s.tcu := by
  unfold countBadRecord
  dsimp only
  split <;> simp


/-! ### `bandSent`: a band has been sent -/

@[simp] theorem bandSent_pending (l : RLane) (s : State) :
    (bandSent l s).pending = s.pending := by
  unfold bandSent
  split
  · simp
  · split <;> simp

@[simp] theorem bandSent_rstnLow (l : RLane) (s : State) :
    (bandSent l s).rstnLow = s.rstnLow := by
  unfold bandSent
  split
  · simp
  · split <;> simp

@[simp] theorem bandSent_mem (l : RLane) (s : State) :
    (bandSent l s).mem = s.mem := by
  unfold bandSent
  split
  · simp
  · split <;> simp

@[simp] theorem bandSent_fpc (l : RLane) (s : State) :
    (bandSent l s).fpc = s.fpc := by
  unfold bandSent
  split
  · simp
  · split <;> simp

@[simp] theorem bandSent_cd (l : RLane) (s : State) :
    (bandSent l s).cd = s.cd := by
  unfold bandSent
  split
  · simp
  · split <;> simp

@[simp] theorem bandSent_attr (l : RLane) (s : State) :
    (bandSent l s).attr = s.attr := by
  unfold bandSent
  split
  · simp
  · split <;> simp

@[simp] theorem bandSent_tcu (l : RLane) (s : State) :
    (bandSent l s).tcu = s.tcu := by
  unfold bandSent
  split
  · simp
  · split <;> simp

@[simp] theorem bandSent_clr (l : RLane) (s : State) :
    (bandSent l s).clr = s.clr := by
  unfold bandSent
  split
  · simp
  · split <;> simp

@[simp] theorem bandSent_mlu (l : RLane) (s : State) :
    (bandSent l s).mlu = s.mlu := by
  unfold bandSent
  split
  · simp
  · split <;> simp


/-! ### `openBody`: OPEN_FRAME on an ingest lane -/

@[simp] theorem openBody_pending (x : Src) (r : Request) (s : State) :
    (openBody x r s).pending = s.pending := by
  unfold openBody
  split
  · simp
  · split
    · simp
    · split
      · simp
      · dsimp only
        split <;> simp

@[simp] theorem openBody_rstnLow (x : Src) (r : Request) (s : State) :
    (openBody x r s).rstnLow = s.rstnLow := by
  unfold openBody
  split
  · simp
  · split
    · simp
    · split
      · simp
      · dsimp only
        split <;> simp

@[simp] theorem openBody_mem (x : Src) (r : Request) (s : State) :
    (openBody x r s).mem = s.mem := by
  unfold openBody
  split
  · simp
  · split
    · simp
    · split
      · simp
      · dsimp only
        split <;> simp

@[simp] theorem openBody_cd (x : Src) (r : Request) (s : State) :
    (openBody x r s).cd = s.cd := by
  unfold openBody
  split
  · simp
  · split
    · simp
    · split
      · simp
      · dsimp only
        split <;> simp

@[simp] theorem openBody_attr (x : Src) (r : Request) (s : State) :
    (openBody x r s).attr = s.attr := by
  unfold openBody
  split
  · simp
  · split
    · simp
    · split
      · simp
      · dsimp only
        split <;> simp

@[simp] theorem openBody_band (x : Src) (r : Request) (s : State) :
    (openBody x r s).band = s.band := by
  unfold openBody
  split
  · simp
  · split
    · simp
    · split
      · simp
      · dsimp only
        split <;> simp

@[simp] theorem openBody_ms (x : Src) (r : Request) (s : State) :
    (openBody x r s).ms = s.ms := by
  unfold openBody
  split
  · simp
  · split
    · simp
    · split
      · simp
      · dsimp only
        split <;> simp

@[simp] theorem openBody_tcu (x : Src) (r : Request) (s : State) :
    (openBody x r s).tcu = s.tcu := by
  unfold openBody
  split
  · simp
  · split
    · simp
    · split
      · simp
      · dsimp only
        split <;> simp


/-! ### `putBody`: PUT_ROWS on an ingest lane -/

@[simp] theorem putBody_pending (x : Src) (r : Request) (s : State) :
    (putBody x r s).pending = s.pending := by
  unfold putBody
  split
  · simp
  · split
    · simp
    · dsimp only
      split
      · simp
      · split <;> simp

@[simp] theorem putBody_rstnLow (x : Src) (r : Request) (s : State) :
    (putBody x r s).rstnLow = s.rstnLow := by
  unfold putBody
  split
  · simp
  · split
    · simp
    · dsimp only
      split
      · simp
      · split <;> simp

@[simp] theorem putBody_mem (x : Src) (r : Request) (s : State) :
    (putBody x r s).mem = s.mem := by
  unfold putBody
  split
  · simp
  · split
    · simp
    · dsimp only
      split
      · simp
      · split <;> simp

@[simp] theorem putBody_fpc (x : Src) (r : Request) (s : State) :
    (putBody x r s).fpc = s.fpc := by
  unfold putBody
  split
  · simp
  · split
    · simp
    · dsimp only
      split
      · simp
      · split <;> simp

@[simp] theorem putBody_cd (x : Src) (r : Request) (s : State) :
    (putBody x r s).cd = s.cd := by
  unfold putBody
  split
  · simp
  · split
    · simp
    · dsimp only
      split
      · simp
      · split <;> simp

@[simp] theorem putBody_attr (x : Src) (r : Request) (s : State) :
    (putBody x r s).attr = s.attr := by
  unfold putBody
  split
  · simp
  · split
    · simp
    · dsimp only
      split
      · simp
      · split <;> simp

@[simp] theorem putBody_tcu (x : Src) (r : Request) (s : State) :
    (putBody x r s).tcu = s.tcu := by
  unfold putBody
  split
  · simp
  · split
    · simp
    · dsimp only
      split
      · simp
      · split <;> simp

@[simp] theorem putBody_clr (x : Src) (r : Request) (s : State) :
    (putBody x r s).clr = s.clr := by
  unfold putBody
  split
  · simp
  · split
    · simp
    · dsimp only
      split
      · simp
      · split <;> simp

@[simp] theorem putBody_mlu (x : Src) (r : Request) (s : State) :
    (putBody x r s).mlu = s.mlu := by
  unfold putBody
  split
  · simp
  · split
    · simp
    · dsimp only
      split
      · simp
      · split <;> simp


/-! ### `sealBody`: SEAL_FRAME on an ingest lane -/

@[simp] theorem sealBody_pending (x : Src) (r : Request) (s : State) :
    (sealBody x r s).pending = s.pending := by
  unfold sealBody
  split
  · simp
  · split
    · simp
    · split
      · split <;> simp
      · simp

@[simp] theorem sealBody_rstnLow (x : Src) (r : Request) (s : State) :
    (sealBody x r s).rstnLow = s.rstnLow := by
  unfold sealBody
  split
  · simp
  · split
    · simp
    · split
      · split <;> simp
      · simp

@[simp] theorem sealBody_mem (x : Src) (r : Request) (s : State) :
    (sealBody x r s).mem = s.mem := by
  unfold sealBody
  split
  · simp
  · split
    · simp
    · split
      · split <;> simp
      · simp

@[simp] theorem sealBody_attr (x : Src) (r : Request) (s : State) :
    (sealBody x r s).attr = s.attr := by
  unfold sealBody
  split
  · simp
  · split
    · simp
    · split
      · split <;> simp
      · simp

@[simp] theorem sealBody_clr (x : Src) (r : Request) (s : State) :
    (sealBody x r s).clr = s.clr := by
  unfold sealBody
  split
  · simp
  · split
    · simp
    · split
      · split <;> simp
      · simp

@[simp] theorem sealBody_mlu (x : Src) (r : Request) (s : State) :
    (sealBody x r s).mlu = s.mlu := by
  unfold sealBody
  split
  · simp
  · split
    · simp
    · split
      · split <;> simp
      · simp


/-! ### `abandonBody`: ABANDON_FRAME on an ingest lane -/

@[simp] theorem abandonBody_pending (x : Src) (r : Request) (s : State) :
    (abandonBody x r s).pending = s.pending := by
  unfold abandonBody
  split
  · simp
  · split <;> simp

@[simp] theorem abandonBody_rstnLow (x : Src) (r : Request) (s : State) :
    (abandonBody x r s).rstnLow = s.rstnLow := by
  unfold abandonBody
  split
  · simp
  · split <;> simp

@[simp] theorem abandonBody_mem (x : Src) (r : Request) (s : State) :
    (abandonBody x r s).mem = s.mem := by
  unfold abandonBody
  split
  · simp
  · split <;> simp

@[simp] theorem abandonBody_cd (x : Src) (r : Request) (s : State) :
    (abandonBody x r s).cd = s.cd := by
  unfold abandonBody
  split
  · simp
  · split <;> simp

@[simp] theorem abandonBody_attr (x : Src) (r : Request) (s : State) :
    (abandonBody x r s).attr = s.attr := by
  unfold abandonBody
  split
  · simp
  · split <;> simp

@[simp] theorem abandonBody_band (x : Src) (r : Request) (s : State) :
    (abandonBody x r s).band = s.band := by
  unfold abandonBody
  split
  · simp
  · split <;> simp

@[simp] theorem abandonBody_ms (x : Src) (r : Request) (s : State) :
    (abandonBody x r s).ms = s.ms := by
  unfold abandonBody
  split
  · simp
  · split <;> simp

@[simp] theorem abandonBody_tcu (x : Src) (r : Request) (s : State) :
    (abandonBody x r s).tcu = s.tcu := by
  unfold abandonBody
  split
  · simp
  · split <;> simp


/-! ### `bindFresh`: a lane takes a source and a window -/

@[simp] theorem bindFresh_pending (l : RLane) (x : Src) (v : Window) (s : State) :
    (bindFresh l x v s).pending = s.pending := by
  simp [bindFresh]

@[simp] theorem bindFresh_rstnLow (l : RLane) (x : Src) (v : Window) (s : State) :
    (bindFresh l x v s).rstnLow = s.rstnLow := by
  simp [bindFresh]

@[simp] theorem bindFresh_mem (l : RLane) (x : Src) (v : Window) (s : State) :
    (bindFresh l x v s).mem = s.mem := by
  simp [bindFresh]

@[simp] theorem bindFresh_fpc (l : RLane) (x : Src) (v : Window) (s : State) :
    (bindFresh l x v s).fpc = s.fpc := by
  simp [bindFresh]

@[simp] theorem bindFresh_il (l : RLane) (x : Src) (v : Window) (s : State) :
    (bindFresh l x v s).il = s.il := by
  simp [bindFresh]

@[simp] theorem bindFresh_cd (l : RLane) (x : Src) (v : Window) (s : State) :
    (bindFresh l x v s).cd = s.cd := by
  simp [bindFresh]

@[simp] theorem bindFresh_attr (l : RLane) (x : Src) (v : Window) (s : State) :
    (bindFresh l x v s).attr = s.attr := by
  simp [bindFresh]

@[simp] theorem bindFresh_band (l : RLane) (x : Src) (v : Window) (s : State) :
    (bindFresh l x v s).band = s.band := by
  simp [bindFresh]

@[simp] theorem bindFresh_ms (l : RLane) (x : Src) (v : Window) (s : State) :
    (bindFresh l x v s).ms = s.ms := by
  simp [bindFresh]

@[simp] theorem bindFresh_tcu (l : RLane) (x : Src) (v : Window) (s : State) :
    (bindFresh l x v s).tcu = s.tcu := by
  simp [bindFresh]

@[simp] theorem bindFresh_clr (l : RLane) (x : Src) (v : Window) (s : State) :
    (bindFresh l x v s).clr = s.clr := by
  simp [bindFresh]

@[simp] theorem bindFresh_mlu (l : RLane) (x : Src) (v : Window) (s : State) :
    (bindFresh l x v s).mlu = s.mlu := by
  simp [bindFresh]


/-! ### `applyBind`: a BIND whose checks passed -/

@[simp] theorem applyBind_pending (l : RLane) (x : Src) (v : Window) (s : State) :
    (applyBind l x v s).pending = s.pending := by
  unfold applyBind
  split
  · simp
  · split <;> simp

@[simp] theorem applyBind_rstnLow (l : RLane) (x : Src) (v : Window) (s : State) :
    (applyBind l x v s).rstnLow = s.rstnLow := by
  unfold applyBind
  split
  · simp
  · split <;> simp

@[simp] theorem applyBind_mem (l : RLane) (x : Src) (v : Window) (s : State) :
    (applyBind l x v s).mem = s.mem := by
  unfold applyBind
  split
  · simp
  · split <;> simp

@[simp] theorem applyBind_cd (l : RLane) (x : Src) (v : Window) (s : State) :
    (applyBind l x v s).cd = s.cd := by
  unfold applyBind
  split
  · simp
  · split <;> simp

@[simp] theorem applyBind_attr (l : RLane) (x : Src) (v : Window) (s : State) :
    (applyBind l x v s).attr = s.attr := by
  unfold applyBind
  split
  · simp
  · split <;> simp

@[simp] theorem applyBind_band (l : RLane) (x : Src) (v : Window) (s : State) :
    (applyBind l x v s).band = s.band := by
  unfold applyBind
  split
  · simp
  · split <;> simp

@[simp] theorem applyBind_ms (l : RLane) (x : Src) (v : Window) (s : State) :
    (applyBind l x v s).ms = s.ms := by
  unfold applyBind
  split
  · simp
  · split <;> simp

@[simp] theorem applyBind_tcu (l : RLane) (x : Src) (v : Window) (s : State) :
    (applyBind l x v s).tcu = s.tcu := by
  unfold applyBind
  split
  · simp
  · split <;> simp


/-! ### `bindBody`: BIND on a rendition lane -/

@[simp] theorem bindBody_pending (l : RLane) (r : Request) (s : State) :
    (bindBody l r s).pending = s.pending := by
  unfold bindBody
  split
  · simp
  · split
    · simp
    · dsimp only
      split
      · simp
      · split
        · simp
        · split <;> simp

@[simp] theorem bindBody_rstnLow (l : RLane) (r : Request) (s : State) :
    (bindBody l r s).rstnLow = s.rstnLow := by
  unfold bindBody
  split
  · simp
  · split
    · simp
    · dsimp only
      split
      · simp
      · split
        · simp
        · split <;> simp

@[simp] theorem bindBody_mem (l : RLane) (r : Request) (s : State) :
    (bindBody l r s).mem = s.mem := by
  unfold bindBody
  split
  · simp
  · split
    · simp
    · dsimp only
      split
      · simp
      · split
        · simp
        · split <;> simp

@[simp] theorem bindBody_cd (l : RLane) (r : Request) (s : State) :
    (bindBody l r s).cd = s.cd := by
  unfold bindBody
  split
  · simp
  · split
    · simp
    · dsimp only
      split
      · simp
      · split
        · simp
        · split <;> simp

@[simp] theorem bindBody_attr (l : RLane) (r : Request) (s : State) :
    (bindBody l r s).attr = s.attr := by
  unfold bindBody
  split
  · simp
  · split
    · simp
    · dsimp only
      split
      · simp
      · split
        · simp
        · split <;> simp

@[simp] theorem bindBody_band (l : RLane) (r : Request) (s : State) :
    (bindBody l r s).band = s.band := by
  unfold bindBody
  split
  · simp
  · split
    · simp
    · dsimp only
      split
      · simp
      · split
        · simp
        · split <;> simp

@[simp] theorem bindBody_ms (l : RLane) (r : Request) (s : State) :
    (bindBody l r s).ms = s.ms := by
  unfold bindBody
  split
  · simp
  · split
    · simp
    · dsimp only
      split
      · simp
      · split
        · simp
        · split <;> simp

@[simp] theorem bindBody_tcu (l : RLane) (r : Request) (s : State) :
    (bindBody l r s).tcu = s.tcu := by
  unfold bindBody
  split
  · simp
  · split
    · simp
    · dsimp only
      split
      · simp
      · split
        · simp
        · split <;> simp


/-! ### `unbindBody`: UNBIND on a rendition lane -/

@[simp] theorem unbindBody_pending (l : RLane) (r : Request) (s : State) :
    (unbindBody l r s).pending = s.pending := by
  unfold unbindBody
  split
  · simp
  · split
    · simp
    · split <;> simp

@[simp] theorem unbindBody_rstnLow (l : RLane) (r : Request) (s : State) :
    (unbindBody l r s).rstnLow = s.rstnLow := by
  unfold unbindBody
  split
  · simp
  · split
    · simp
    · split <;> simp

@[simp] theorem unbindBody_mem (l : RLane) (r : Request) (s : State) :
    (unbindBody l r s).mem = s.mem := by
  unfold unbindBody
  split
  · simp
  · split
    · simp
    · split <;> simp

@[simp] theorem unbindBody_cd (l : RLane) (r : Request) (s : State) :
    (unbindBody l r s).cd = s.cd := by
  unfold unbindBody
  split
  · simp
  · split
    · simp
    · split <;> simp

@[simp] theorem unbindBody_attr (l : RLane) (r : Request) (s : State) :
    (unbindBody l r s).attr = s.attr := by
  unfold unbindBody
  split
  · simp
  · split
    · simp
    · split <;> simp

@[simp] theorem unbindBody_band (l : RLane) (r : Request) (s : State) :
    (unbindBody l r s).band = s.band := by
  unfold unbindBody
  split
  · simp
  · split
    · simp
    · split <;> simp

@[simp] theorem unbindBody_ms (l : RLane) (r : Request) (s : State) :
    (unbindBody l r s).ms = s.ms := by
  unfold unbindBody
  split
  · simp
  · split
    · simp
    · split <;> simp

@[simp] theorem unbindBody_tcu (l : RLane) (r : Request) (s : State) :
    (unbindBody l r s).tcu = s.tcu := by
  unfold unbindBody
  split
  · simp
  · split
    · simp
    · split <;> simp


/-! ### `waitClaim`: a CLAIM NEXT that finds no frame -/

@[simp] theorem waitClaim_pending (l : RLane) (t : Byte) (s : State) :
    (waitClaim l t s).pending = s.pending := by
  unfold waitClaim
  dsimp only
  split <;> simp

@[simp] theorem waitClaim_rstnLow (l : RLane) (t : Byte) (s : State) :
    (waitClaim l t s).rstnLow = s.rstnLow := by
  unfold waitClaim
  dsimp only
  split <;> simp

@[simp] theorem waitClaim_mem (l : RLane) (t : Byte) (s : State) :
    (waitClaim l t s).mem = s.mem := by
  unfold waitClaim
  dsimp only
  split <;> simp

@[simp] theorem waitClaim_fpc (l : RLane) (t : Byte) (s : State) :
    (waitClaim l t s).fpc = s.fpc := by
  unfold waitClaim
  dsimp only
  split <;> simp

@[simp] theorem waitClaim_cd (l : RLane) (t : Byte) (s : State) :
    (waitClaim l t s).cd = s.cd := by
  unfold waitClaim
  dsimp only
  split <;> simp

@[simp] theorem waitClaim_attr (l : RLane) (t : Byte) (s : State) :
    (waitClaim l t s).attr = s.attr := by
  unfold waitClaim
  dsimp only
  split <;> simp

@[simp] theorem waitClaim_band (l : RLane) (t : Byte) (s : State) :
    (waitClaim l t s).band = s.band := by
  unfold waitClaim
  dsimp only
  split <;> simp

@[simp] theorem waitClaim_ms (l : RLane) (t : Byte) (s : State) :
    (waitClaim l t s).ms = s.ms := by
  unfold waitClaim
  dsimp only
  split <;> simp

@[simp] theorem waitClaim_tcu (l : RLane) (t : Byte) (s : State) :
    (waitClaim l t s).tcu = s.tcu := by
  unfold waitClaim
  dsimp only
  split <;> simp

@[simp] theorem waitClaim_clr (l : RLane) (t : Byte) (s : State) :
    (waitClaim l t s).clr = s.clr := by
  unfold waitClaim
  dsimp only
  split <;> simp

@[simp] theorem waitClaim_mlu (l : RLane) (t : Byte) (s : State) :
    (waitClaim l t s).mlu = s.mlu := by
  unfold waitClaim
  dsimp only
  split <;> simp


/-! ### `nextBody`: CLAIM NEXT after the common checks -/

@[simp] theorem nextBody_pending (l : RLane) (t : Byte) (b : Binding) (s : State) :
    (nextBody l t b s).pending = s.pending := by
  unfold nextBody
  split <;> simp

@[simp] theorem nextBody_rstnLow (l : RLane) (t : Byte) (b : Binding) (s : State) :
    (nextBody l t b s).rstnLow = s.rstnLow := by
  unfold nextBody
  split <;> simp

@[simp] theorem nextBody_mem (l : RLane) (t : Byte) (b : Binding) (s : State) :
    (nextBody l t b s).mem = s.mem := by
  unfold nextBody
  split <;> simp

@[simp] theorem nextBody_cd (l : RLane) (t : Byte) (b : Binding) (s : State) :
    (nextBody l t b s).cd = s.cd := by
  unfold nextBody
  split <;> simp

@[simp] theorem nextBody_attr (l : RLane) (t : Byte) (b : Binding) (s : State) :
    (nextBody l t b s).attr = s.attr := by
  unfold nextBody
  split <;> simp

@[simp] theorem nextBody_band (l : RLane) (t : Byte) (b : Binding) (s : State) :
    (nextBody l t b s).band = s.band := by
  unfold nextBody
  split <;> simp

@[simp] theorem nextBody_ms (l : RLane) (t : Byte) (b : Binding) (s : State) :
    (nextBody l t b s).ms = s.ms := by
  unfold nextBody
  split <;> simp

@[simp] theorem nextBody_tcu (l : RLane) (t : Byte) (b : Binding) (s : State) :
    (nextBody l t b s).tcu = s.tcu := by
  unfold nextBody
  split <;> simp


/-! ### `latestBody`: CLAIM LATEST after the common checks -/

@[simp] theorem latestBody_pending (l : RLane) (b : Binding) (s : State) :
    (latestBody l b s).pending = s.pending := by
  unfold latestBody
  split
  · simp
  · split <;> simp

@[simp] theorem latestBody_rstnLow (l : RLane) (b : Binding) (s : State) :
    (latestBody l b s).rstnLow = s.rstnLow := by
  unfold latestBody
  split
  · simp
  · split <;> simp

@[simp] theorem latestBody_mem (l : RLane) (b : Binding) (s : State) :
    (latestBody l b s).mem = s.mem := by
  unfold latestBody
  split
  · simp
  · split <;> simp

@[simp] theorem latestBody_cd (l : RLane) (b : Binding) (s : State) :
    (latestBody l b s).cd = s.cd := by
  unfold latestBody
  split
  · simp
  · split <;> simp

@[simp] theorem latestBody_attr (l : RLane) (b : Binding) (s : State) :
    (latestBody l b s).attr = s.attr := by
  unfold latestBody
  split
  · simp
  · split <;> simp

@[simp] theorem latestBody_band (l : RLane) (b : Binding) (s : State) :
    (latestBody l b s).band = s.band := by
  unfold latestBody
  split
  · simp
  · split <;> simp

@[simp] theorem latestBody_ms (l : RLane) (b : Binding) (s : State) :
    (latestBody l b s).ms = s.ms := by
  unfold latestBody
  split
  · simp
  · split <;> simp

@[simp] theorem latestBody_tcu (l : RLane) (b : Binding) (s : State) :
    (latestBody l b s).tcu = s.tcu := by
  unfold latestBody
  split
  · simp
  · split <;> simp


/-! ### `numberBody`: CLAIM NUMBER after the common checks -/

@[simp] theorem numberBody_pending (l : RLane) (n : FrameNo) (b : Binding) (s : State) :
    (numberBody l n b s).pending = s.pending := by
  unfold numberBody
  split
  · simp
  · split
    · simp
    · split
      · simp
      · split <;> simp

@[simp] theorem numberBody_rstnLow (l : RLane) (n : FrameNo) (b : Binding) (s : State) :
    (numberBody l n b s).rstnLow = s.rstnLow := by
  unfold numberBody
  split
  · simp
  · split
    · simp
    · split
      · simp
      · split <;> simp

@[simp] theorem numberBody_mem (l : RLane) (n : FrameNo) (b : Binding) (s : State) :
    (numberBody l n b s).mem = s.mem := by
  unfold numberBody
  split
  · simp
  · split
    · simp
    · split
      · simp
      · split <;> simp

@[simp] theorem numberBody_cd (l : RLane) (n : FrameNo) (b : Binding) (s : State) :
    (numberBody l n b s).cd = s.cd := by
  unfold numberBody
  split
  · simp
  · split
    · simp
    · split
      · simp
      · split <;> simp

@[simp] theorem numberBody_attr (l : RLane) (n : FrameNo) (b : Binding) (s : State) :
    (numberBody l n b s).attr = s.attr := by
  unfold numberBody
  split
  · simp
  · split
    · simp
    · split
      · simp
      · split <;> simp

@[simp] theorem numberBody_band (l : RLane) (n : FrameNo) (b : Binding) (s : State) :
    (numberBody l n b s).band = s.band := by
  unfold numberBody
  split
  · simp
  · split
    · simp
    · split
      · simp
      · split <;> simp

@[simp] theorem numberBody_ms (l : RLane) (n : FrameNo) (b : Binding) (s : State) :
    (numberBody l n b s).ms = s.ms := by
  unfold numberBody
  split
  · simp
  · split
    · simp
    · split
      · simp
      · split <;> simp

@[simp] theorem numberBody_tcu (l : RLane) (n : FrameNo) (b : Binding) (s : State) :
    (numberBody l n b s).tcu = s.tcu := by
  unfold numberBody
  split
  · simp
  · split
    · simp
    · split
      · simp
      · split <;> simp


/-! ### `claimChecked`: the common checks of a claim -/

theorem claimChecked_pending (l : RLane) (r : Request) (g : Binding → State → State) (s : State)
    (h : ∀ b, (g b s).pending = s.pending) : (claimChecked l r g s).pending = s.pending := by
  unfold claimChecked
  split
  · simp
  · split
    · simp
    · split
      · simp
      · split
        · simp
        · exact h _

theorem claimChecked_rstnLow (l : RLane) (r : Request) (g : Binding → State → State) (s : State)
    (h : ∀ b, (g b s).rstnLow = s.rstnLow) : (claimChecked l r g s).rstnLow = s.rstnLow := by
  unfold claimChecked
  split
  · simp
  · split
    · simp
    · split
      · simp
      · split
        · simp
        · exact h _

theorem claimChecked_mem (l : RLane) (r : Request) (g : Binding → State → State) (s : State)
    (h : ∀ b, (g b s).mem = s.mem) : (claimChecked l r g s).mem = s.mem := by
  unfold claimChecked
  split
  · simp
  · split
    · simp
    · split
      · simp
      · split
        · simp
        · exact h _

theorem claimChecked_cd (l : RLane) (r : Request) (g : Binding → State → State) (s : State)
    (h : ∀ b, (g b s).cd = s.cd) : (claimChecked l r g s).cd = s.cd := by
  unfold claimChecked
  split
  · simp
  · split
    · simp
    · split
      · simp
      · split
        · simp
        · exact h _

theorem claimChecked_attr (l : RLane) (r : Request) (g : Binding → State → State) (s : State)
    (h : ∀ b, (g b s).attr = s.attr) : (claimChecked l r g s).attr = s.attr := by
  unfold claimChecked
  split
  · simp
  · split
    · simp
    · split
      · simp
      · split
        · simp
        · exact h _

theorem claimChecked_band (l : RLane) (r : Request) (g : Binding → State → State) (s : State)
    (h : ∀ b, (g b s).band = s.band) : (claimChecked l r g s).band = s.band := by
  unfold claimChecked
  split
  · simp
  · split
    · simp
    · split
      · simp
      · split
        · simp
        · exact h _

theorem claimChecked_ms (l : RLane) (r : Request) (g : Binding → State → State) (s : State)
    (h : ∀ b, (g b s).ms = s.ms) : (claimChecked l r g s).ms = s.ms := by
  unfold claimChecked
  split
  · simp
  · split
    · simp
    · split
      · simp
      · split
        · simp
        · exact h _

theorem claimChecked_tcu (l : RLane) (r : Request) (g : Binding → State → State) (s : State)
    (h : ∀ b, (g b s).tcu = s.tcu) : (claimChecked l r g s).tcu = s.tcu := by
  unfold claimChecked
  split
  · simp
  · split
    · simp
    · split
      · simp
      · split
        · simp
        · exact h _


/-! ### `releaseBody`: RELEASE on a rendition lane -/

@[simp] theorem releaseBody_pending (l : RLane) (r : Request) (s : State) :
    (releaseBody l r s).pending = s.pending := by
  unfold releaseBody
  split
  · simp
  · dsimp only
    split <;> simp

@[simp] theorem releaseBody_rstnLow (l : RLane) (r : Request) (s : State) :
    (releaseBody l r s).rstnLow = s.rstnLow := by
  unfold releaseBody
  split
  · simp
  · dsimp only
    split <;> simp

@[simp] theorem releaseBody_mem (l : RLane) (r : Request) (s : State) :
    (releaseBody l r s).mem = s.mem := by
  unfold releaseBody
  split
  · simp
  · dsimp only
    split <;> simp

@[simp] theorem releaseBody_cd (l : RLane) (r : Request) (s : State) :
    (releaseBody l r s).cd = s.cd := by
  unfold releaseBody
  split
  · simp
  · dsimp only
    split <;> simp

@[simp] theorem releaseBody_attr (l : RLane) (r : Request) (s : State) :
    (releaseBody l r s).attr = s.attr := by
  unfold releaseBody
  split
  · simp
  · dsimp only
    split <;> simp

@[simp] theorem releaseBody_band (l : RLane) (r : Request) (s : State) :
    (releaseBody l r s).band = s.band := by
  unfold releaseBody
  split
  · simp
  · dsimp only
    split <;> simp

@[simp] theorem releaseBody_ms (l : RLane) (r : Request) (s : State) :
    (releaseBody l r s).ms = s.ms := by
  unfold releaseBody
  split
  · simp
  · dsimp only
    split <;> simp

@[simp] theorem releaseBody_tcu (l : RLane) (r : Request) (s : State) :
    (releaseBody l r s).tcu = s.tcu := by
  unfold releaseBody
  split
  · simp
  · dsimp only
    split <;> simp


/-! ### `maskChecked`: FETCH_MASK on a rendition lane -/

@[simp] theorem maskChecked_pending (l : RLane) (r : Request) (m : Nat → State → TileSet) (s : State) :
    (maskChecked l r m s).pending = s.pending := by
  unfold maskChecked
  split
  · simp
  · dsimp only
    split
    · simp
    · split <;> simp

@[simp] theorem maskChecked_rstnLow (l : RLane) (r : Request) (m : Nat → State → TileSet) (s : State) :
    (maskChecked l r m s).rstnLow = s.rstnLow := by
  unfold maskChecked
  split
  · simp
  · dsimp only
    split
    · simp
    · split <;> simp

@[simp] theorem maskChecked_mem (l : RLane) (r : Request) (m : Nat → State → TileSet) (s : State) :
    (maskChecked l r m s).mem = s.mem := by
  unfold maskChecked
  split
  · simp
  · dsimp only
    split
    · simp
    · split <;> simp

@[simp] theorem maskChecked_fpc (l : RLane) (r : Request) (m : Nat → State → TileSet) (s : State) :
    (maskChecked l r m s).fpc = s.fpc := by
  unfold maskChecked
  split
  · simp
  · dsimp only
    split
    · simp
    · split <;> simp

@[simp] theorem maskChecked_cd (l : RLane) (r : Request) (m : Nat → State → TileSet) (s : State) :
    (maskChecked l r m s).cd = s.cd := by
  unfold maskChecked
  split
  · simp
  · dsimp only
    split
    · simp
    · split <;> simp

@[simp] theorem maskChecked_attr (l : RLane) (r : Request) (m : Nat → State → TileSet) (s : State) :
    (maskChecked l r m s).attr = s.attr := by
  unfold maskChecked
  split
  · simp
  · dsimp only
    split
    · simp
    · split <;> simp

@[simp] theorem maskChecked_band (l : RLane) (r : Request) (m : Nat → State → TileSet) (s : State) :
    (maskChecked l r m s).band = s.band := by
  unfold maskChecked
  split
  · simp
  · dsimp only
    split
    · simp
    · split <;> simp

@[simp] theorem maskChecked_ms (l : RLane) (r : Request) (m : Nat → State → TileSet) (s : State) :
    (maskChecked l r m s).ms = s.ms := by
  unfold maskChecked
  split
  · simp
  · dsimp only
    split
    · simp
    · split <;> simp

@[simp] theorem maskChecked_tcu (l : RLane) (r : Request) (m : Nat → State → TileSet) (s : State) :
    (maskChecked l r m s).tcu = s.tcu := by
  unfold maskChecked
  split
  · simp
  · dsimp only
    split
    · simp
    · split <;> simp

@[simp] theorem maskChecked_clr (l : RLane) (r : Request) (m : Nat → State → TileSet) (s : State) :
    (maskChecked l r m s).clr = s.clr := by
  unfold maskChecked
  split
  · simp
  · dsimp only
    split
    · simp
    · split <;> simp

@[simp] theorem maskChecked_mlu (l : RLane) (r : Request) (m : Nat → State → TileSet) (s : State) :
    (maskChecked l r m s).mlu = s.mlu := by
  unfold maskChecked
  split
  · simp
  · dsimp only
    split
    · simp
    · split <;> simp


/-! ### `subscribeBody`: SUBSCRIBE on a rendition lane -/

@[simp] theorem subscribeBody_pending (l : RLane) (r : Request) (s : State) :
    (subscribeBody l r s).pending = s.pending := by
  simp [subscribeBody]

@[simp] theorem subscribeBody_rstnLow (l : RLane) (r : Request) (s : State) :
    (subscribeBody l r s).rstnLow = s.rstnLow := by
  simp [subscribeBody]

@[simp] theorem subscribeBody_mem (l : RLane) (r : Request) (s : State) :
    (subscribeBody l r s).mem = s.mem := by
  simp [subscribeBody]

@[simp] theorem subscribeBody_fpc (l : RLane) (r : Request) (s : State) :
    (subscribeBody l r s).fpc = s.fpc := by
  simp [subscribeBody]

@[simp] theorem subscribeBody_cd (l : RLane) (r : Request) (s : State) :
    (subscribeBody l r s).cd = s.cd := by
  simp [subscribeBody]

@[simp] theorem subscribeBody_attr (l : RLane) (r : Request) (s : State) :
    (subscribeBody l r s).attr = s.attr := by
  simp [subscribeBody]

@[simp] theorem subscribeBody_band (l : RLane) (r : Request) (s : State) :
    (subscribeBody l r s).band = s.band := by
  simp [subscribeBody]

@[simp] theorem subscribeBody_ms (l : RLane) (r : Request) (s : State) :
    (subscribeBody l r s).ms = s.ms := by
  simp [subscribeBody]

@[simp] theorem subscribeBody_tcu (l : RLane) (r : Request) (s : State) :
    (subscribeBody l r s).tcu = s.tcu := by
  simp [subscribeBody]

@[simp] theorem subscribeBody_clr (l : RLane) (r : Request) (s : State) :
    (subscribeBody l r s).clr = s.clr := by
  simp [subscribeBody]

@[simp] theorem subscribeBody_mlu (l : RLane) (r : Request) (s : State) :
    (subscribeBody l r s).mlu = s.mlu := by
  simp [subscribeBody]


/-! ### `fetchBody`: FETCH on a rendition lane -/

@[simp] theorem fetchBody_pending (l : RLane) (r : Request) (s : State) :
    (fetchBody l r s).pending = s.pending := by
  unfold fetchBody
  split
  · simp
  · split
    · simp
    · dsimp only
      split
      · simp
      · split <;> simp

@[simp] theorem fetchBody_rstnLow (l : RLane) (r : Request) (s : State) :
    (fetchBody l r s).rstnLow = s.rstnLow := by
  unfold fetchBody
  split
  · simp
  · split
    · simp
    · dsimp only
      split
      · simp
      · split <;> simp

@[simp] theorem fetchBody_mem (l : RLane) (r : Request) (s : State) :
    (fetchBody l r s).mem = s.mem := by
  unfold fetchBody
  split
  · simp
  · split
    · simp
    · dsimp only
      split
      · simp
      · split <;> simp

@[simp] theorem fetchBody_fpc (l : RLane) (r : Request) (s : State) :
    (fetchBody l r s).fpc = s.fpc := by
  unfold fetchBody
  split
  · simp
  · split
    · simp
    · dsimp only
      split
      · simp
      · split <;> simp

@[simp] theorem fetchBody_cd (l : RLane) (r : Request) (s : State) :
    (fetchBody l r s).cd = s.cd := by
  unfold fetchBody
  split
  · simp
  · split
    · simp
    · dsimp only
      split
      · simp
      · split <;> simp

@[simp] theorem fetchBody_attr (l : RLane) (r : Request) (s : State) :
    (fetchBody l r s).attr = s.attr := by
  unfold fetchBody
  split
  · simp
  · split
    · simp
    · dsimp only
      split
      · simp
      · split <;> simp

@[simp] theorem fetchBody_tcu (l : RLane) (r : Request) (s : State) :
    (fetchBody l r s).tcu = s.tcu := by
  unfold fetchBody
  split
  · simp
  · split
    · simp
    · dsimp only
      split
      · simp
      · split <;> simp

@[simp] theorem fetchBody_clr (l : RLane) (r : Request) (s : State) :
    (fetchBody l r s).clr = s.clr := by
  unfold fetchBody
  split
  · simp
  · split
    · simp
    · dsimp only
      split
      · simp
      · split <;> simp

@[simp] theorem fetchBody_mlu (l : RLane) (r : Request) (s : State) :
    (fetchBody l r s).mlu = s.mlu := by
  unfold fetchBody
  split
  · simp
  · split
    · simp
    · dsimp only
      split
      · simp
      · split <;> simp


/-! ### `bufferBand`: a finished band enters the band buffer -/

@[simp] theorem bufferBand_pending (l : RLane) (b : Band) (s : State) :
    (bufferBand l b s).pending = s.pending := by
  simp [bufferBand]

@[simp] theorem bufferBand_rstnLow (l : RLane) (b : Band) (s : State) :
    (bufferBand l b s).rstnLow = s.rstnLow := by
  simp [bufferBand]

@[simp] theorem bufferBand_mem (l : RLane) (b : Band) (s : State) :
    (bufferBand l b s).mem = s.mem := by
  simp [bufferBand]

@[simp] theorem bufferBand_fpc (l : RLane) (b : Band) (s : State) :
    (bufferBand l b s).fpc = s.fpc := by
  simp [bufferBand]

@[simp] theorem bufferBand_il (l : RLane) (b : Band) (s : State) :
    (bufferBand l b s).il = s.il := by
  simp [bufferBand]

@[simp] theorem bufferBand_cd (l : RLane) (b : Band) (s : State) :
    (bufferBand l b s).cd = s.cd := by
  simp [bufferBand]

@[simp] theorem bufferBand_attr (l : RLane) (b : Band) (s : State) :
    (bufferBand l b s).attr = s.attr := by
  simp [bufferBand]

@[simp] theorem bufferBand_band (l : RLane) (b : Band) (s : State) :
    (bufferBand l b s).band = s.band := by
  simp [bufferBand]

@[simp] theorem bufferBand_ms (l : RLane) (b : Band) (s : State) :
    (bufferBand l b s).ms = s.ms := by
  simp [bufferBand]

@[simp] theorem bufferBand_tcu (l : RLane) (b : Band) (s : State) :
    (bufferBand l b s).tcu = s.tcu := by
  simp [bufferBand]

@[simp] theorem bufferBand_clr (l : RLane) (b : Band) (s : State) :
    (bufferBand l b s).clr = s.clr := by
  simp [bufferBand]

@[simp] theorem bufferBand_mlu (l : RLane) (b : Band) (s : State) :
    (bufferBand l b s).mlu = s.mlu := by
  simp [bufferBand]


/-! ### The transmitter -/

theorem takeOutgoing_pending {lane : Lane} {s t : State} {r : OutRecord} (h : takeOutgoing lane s = some (r, t)) :
    t.pending = s.pending := by
  unfold takeOutgoing at h
  dsimp only at h
  repeat' split at h
  all_goals first
    | cases h; simp
    | cases h

@[simp] theorem beginSend_pending (lane : Lane) (s : State) : (beginSend lane s).pending = s.pending := by
  unfold beginSend
  split
  · rfl
  · split
    · rename_i h
      rw [State.modLink_pending, takeOutgoing_pending h]
    · rfl

theorem takeOutgoing_rstnLow {lane : Lane} {s t : State} {r : OutRecord} (h : takeOutgoing lane s = some (r, t)) :
    t.rstnLow = s.rstnLow := by
  unfold takeOutgoing at h
  dsimp only at h
  repeat' split at h
  all_goals first
    | cases h; simp
    | cases h

@[simp] theorem beginSend_rstnLow (lane : Lane) (s : State) : (beginSend lane s).rstnLow = s.rstnLow := by
  unfold beginSend
  split
  · rfl
  · split
    · rename_i h
      rw [State.modLink_rstnLow, takeOutgoing_rstnLow h]
    · rfl

theorem takeOutgoing_mem {lane : Lane} {s t : State} {r : OutRecord} (h : takeOutgoing lane s = some (r, t)) :
    t.mem = s.mem := by
  unfold takeOutgoing at h
  dsimp only at h
  repeat' split at h
  all_goals first
    | cases h; simp
    | cases h

@[simp] theorem beginSend_mem (lane : Lane) (s : State) : (beginSend lane s).mem = s.mem := by
  unfold beginSend
  split
  · rfl
  · split
    · rename_i h
      rw [State.modLink_mem, takeOutgoing_mem h]
    · rfl

theorem takeOutgoing_fpc {lane : Lane} {s t : State} {r : OutRecord} (h : takeOutgoing lane s = some (r, t)) :
    t.fpc = s.fpc := by
  unfold takeOutgoing at h
  dsimp only at h
  repeat' split at h
  all_goals first
    | cases h; simp
    | cases h

@[simp] theorem beginSend_fpc (lane : Lane) (s : State) : (beginSend lane s).fpc = s.fpc := by
  unfold beginSend
  split
  · rfl
  · split
    · rename_i h
      rw [State.modLink_fpc, takeOutgoing_fpc h]
    · rfl

theorem takeOutgoing_cd {lane : Lane} {s t : State} {r : OutRecord} (h : takeOutgoing lane s = some (r, t)) :
    t.cd = s.cd := by
  unfold takeOutgoing at h
  dsimp only at h
  repeat' split at h
  all_goals first
    | cases h; simp
    | cases h

@[simp] theorem beginSend_cd (lane : Lane) (s : State) : (beginSend lane s).cd = s.cd := by
  unfold beginSend
  split
  · rfl
  · split
    · rename_i h
      rw [State.modLink_cd, takeOutgoing_cd h]
    · rfl

theorem takeOutgoing_attr {lane : Lane} {s t : State} {r : OutRecord} (h : takeOutgoing lane s = some (r, t)) :
    t.attr = s.attr := by
  unfold takeOutgoing at h
  dsimp only at h
  repeat' split at h
  all_goals first
    | cases h; simp
    | cases h

@[simp] theorem beginSend_attr (lane : Lane) (s : State) : (beginSend lane s).attr = s.attr := by
  unfold beginSend
  split
  · rfl
  · split
    · rename_i h
      rw [State.modLink_attr, takeOutgoing_attr h]
    · rfl

theorem takeOutgoing_band {lane : Lane} {s t : State} {r : OutRecord} (h : takeOutgoing lane s = some (r, t)) :
    t.band = s.band := by
  unfold takeOutgoing at h
  dsimp only at h
  repeat' split at h
  all_goals first
    | cases h; simp
    | cases h

@[simp] theorem beginSend_band (lane : Lane) (s : State) : (beginSend lane s).band = s.band := by
  unfold beginSend
  split
  · rfl
  · split
    · rename_i h
      rw [State.modLink_band, takeOutgoing_band h]
    · rfl

theorem takeOutgoing_ms {lane : Lane} {s t : State} {r : OutRecord} (h : takeOutgoing lane s = some (r, t)) :
    t.ms = s.ms := by
  unfold takeOutgoing at h
  dsimp only at h
  repeat' split at h
  all_goals first
    | cases h; simp
    | cases h

@[simp] theorem beginSend_ms (lane : Lane) (s : State) : (beginSend lane s).ms = s.ms := by
  unfold beginSend
  split
  · rfl
  · split
    · rename_i h
      rw [State.modLink_ms, takeOutgoing_ms h]
    · rfl

theorem takeOutgoing_tcu {lane : Lane} {s t : State} {r : OutRecord} (h : takeOutgoing lane s = some (r, t)) :
    t.tcu = s.tcu := by
  unfold takeOutgoing at h
  dsimp only at h
  repeat' split at h
  all_goals first
    | cases h; simp
    | cases h

@[simp] theorem beginSend_tcu (lane : Lane) (s : State) : (beginSend lane s).tcu = s.tcu := by
  unfold beginSend
  split
  · rfl
  · split
    · rename_i h
      rw [State.modLink_tcu, takeOutgoing_tcu h]
    · rfl

theorem takeOutgoing_clr {lane : Lane} {s t : State} {r : OutRecord} (h : takeOutgoing lane s = some (r, t)) :
    t.clr = s.clr := by
  unfold takeOutgoing at h
  dsimp only at h
  repeat' split at h
  all_goals first
    | cases h; simp
    | cases h

@[simp] theorem beginSend_clr (lane : Lane) (s : State) : (beginSend lane s).clr = s.clr := by
  unfold beginSend
  split
  · rfl
  · split
    · rename_i h
      rw [State.modLink_clr, takeOutgoing_clr h]
    · rfl

theorem takeOutgoing_mlu {lane : Lane} {s t : State} {r : OutRecord} (h : takeOutgoing lane s = some (r, t)) :
    t.mlu = s.mlu := by
  unfold takeOutgoing at h
  dsimp only at h
  repeat' split at h
  all_goals first
    | cases h; simp
    | cases h

@[simp] theorem beginSend_mlu (lane : Lane) (s : State) : (beginSend lane s).mlu = s.mlu := by
  unfold beginSend
  split
  · rfl
  · split
    · rename_i h
      rw [State.modLink_mlu, takeOutgoing_mlu h]
    · rfl


/-! ### `endSend`: a record has been sent in full -/

@[simp] theorem endSend_pending (lane : Lane) (s : State) :
    (endSend lane s).pending = s.pending := by
  unfold endSend
  split
  · rfl
  · dsimp only
    split <;> simp

@[simp] theorem endSend_rstnLow (lane : Lane) (s : State) :
    (endSend lane s).rstnLow = s.rstnLow := by
  unfold endSend
  split
  · rfl
  · dsimp only
    split <;> simp

@[simp] theorem endSend_mem (lane : Lane) (s : State) :
    (endSend lane s).mem = s.mem := by
  unfold endSend
  split
  · rfl
  · dsimp only
    split <;> simp

@[simp] theorem endSend_fpc (lane : Lane) (s : State) :
    (endSend lane s).fpc = s.fpc := by
  unfold endSend
  split
  · rfl
  · dsimp only
    split <;> simp

@[simp] theorem endSend_cd (lane : Lane) (s : State) :
    (endSend lane s).cd = s.cd := by
  unfold endSend
  split
  · rfl
  · dsimp only
    split <;> simp

@[simp] theorem endSend_attr (lane : Lane) (s : State) :
    (endSend lane s).attr = s.attr := by
  unfold endSend
  split
  · rfl
  · dsimp only
    split <;> simp

@[simp] theorem endSend_tcu (lane : Lane) (s : State) :
    (endSend lane s).tcu = s.tcu := by
  unfold endSend
  split
  · rfl
  · dsimp only
    split <;> simp

@[simp] theorem endSend_clr (lane : Lane) (s : State) :
    (endSend lane s).clr = s.clr := by
  unfold endSend
  split
  · rfl
  · dsimp only
    split <;> simp

@[simp] theorem endSend_mlu (lane : Lane) (s : State) :
    (endSend lane s).mlu = s.mlu := by
  unfold endSend
  split
  · rfl
  · dsimp only
    split <;> simp


end Sys2Proof.Machine
end

