-- ==== Sys2Proof/Laws/Memory.lean ====
section
/-! SUPPORT. The laws of the stacked DRAM's cells: a run of bytes written keeps the canonical form, reads back as written,
and leaves every other byte as it was; and equal contents are equal lists. -/

namespace Sys2Proof.Machine

theorem runCells_bounds {a : Nat} {bs : List Byte} {c : Host.Cell} (h : c ∈ runCells a bs) :
    a ≤ c.1 ∧ c.1 < a + bs.length ∧ c.2 ≠ Config.dramUnwritten := by
  induction bs generalizing a with
  | nil => simp [runCells] at h
  | cons b bs ih =>
    simp only [runCells] at h
    split at h
    · have := ih h
      simp only [List.length_cons]
      exact ⟨by omega, by omega, this.2.2⟩
    · rename_i hb
      rcases List.mem_cons.mp h with rfl | h
      · exact ⟨Nat.le_refl _, by simp, hb⟩
      · have := ih h
        simp only [List.length_cons]
        exact ⟨by omega, by omega, this.2.2⟩

theorem runCells_sorted (a : Nat) (bs : List Byte) : (runCells a bs).Pairwise (fun x y => x.1 < y.1) := by
  induction bs generalizing a with
  | nil => simp [runCells]
  | cons b bs ih =>
    simp only [runCells]
    split
    · exact ih _
    · refine List.pairwise_cons.mpr ⟨fun c hc => ?_, ih _⟩
      have := runCells_bounds hc
      simp only
      omega

/-- A write of a run of bytes keeps the canonical form. -/
theorem writeBytes_wf {m : List Host.Cell} (h : memWf m) (a : Nat) (bs : List Byte) : memWf (writeBytes m a bs) := by
  refine ⟨?_, ?_⟩
  · unfold writeBytes
    refine List.pairwise_append.mpr ⟨List.pairwise_append.mpr ⟨h.1.filter _, runCells_sorted a bs, ?_⟩, h.1.filter _, ?_⟩
    · intro x hx y hy
      have hx := (List.mem_filter.mp hx).2
      have hy := runCells_bounds hy
      simp only [decide_eq_true_eq] at hx
      omega
    · intro x hx y hy
      have hy := (List.mem_filter.mp hy).2
      simp only [decide_eq_true_eq] at hy
      rcases List.mem_append.mp hx with hx | hx
      · have hx := (List.mem_filter.mp hx).2
        simp only [decide_eq_true_eq] at hx
        omega
      · have hx := runCells_bounds hx
        omega
  · intro c hc
    unfold writeBytes at hc
    rcases List.mem_append.mp hc with hc | hc
    · rcases List.mem_append.mp hc with hc | hc
      · exact h.2 c (List.mem_filter.mp hc).1
      · exact (runCells_bounds hc).2.2
    · exact h.2 c (List.mem_filter.mp hc).1

/-- The empty DRAM is in canonical form. -/
theorem memWf_nil : memWf [] := ⟨List.Pairwise.nil, by simp⟩

theorem readByte_of_not_mem {m : List Host.Cell} {x : Nat} (h : ∀ c ∈ m, c.1 ≠ x) : readByte m x = Config.dramUnwritten := by
  induction m with
  | nil => rfl
  | cons c m ih =>
    simp only [readByte, h c (List.mem_cons_self ..), if_false]
    exact ih (fun d hd => h d (List.mem_cons_of_mem _ hd))

theorem readByte_append_left {m n : List Host.Cell} {x : Nat} (h : ∃ c ∈ m, c.1 = x) :
    readByte (m ++ n) x = readByte m x := by
  induction m with
  | nil => obtain ⟨c, hc, -⟩ := h; simp at hc
  | cons d m ih =>
    simp only [List.cons_append, readByte]
    split
    · rfl
    · rename_i hd
      obtain ⟨c, hc, hx⟩ := h
      rcases List.mem_cons.mp hc with rfl | hc
      · exact absurd hx hd
      · exact ih ⟨c, hc, hx⟩

theorem readByte_append_right {m n : List Host.Cell} {x : Nat} (h : ∀ c ∈ m, c.1 ≠ x) :
    readByte (m ++ n) x = readByte n x := by
  induction m with
  | nil => rfl
  | cons d m ih =>
    simp only [List.cons_append, readByte, h d (List.mem_cons_self ..), if_false]
    exact ih (fun c hc => h c (List.mem_cons_of_mem _ hc))

theorem readByte_filter {m : List Host.Cell} {p : Host.Cell → Bool} {x : Nat} (h : ∀ c : Host.Cell, c.1 = x → p c = true) :
    readByte (m.filter p) x = readByte m x := by
  induction m with
  | nil => rfl
  | cons c m ih =>
    by_cases hc : c.1 = x
    · simp [h c hc, readByte, hc]
    · cases hp : p c
      · simp [hp, readByte, hc, ih]
      · simp [hp, readByte, hc, ih]

theorem readByte_runCells (a : Nat) (bs : List Byte) (x : Nat) (h : a ≤ x) :
    readByte (runCells a bs) x = bs.getD (x - a) Config.dramUnwritten := by
  induction bs generalizing a with
  | nil => simp [runCells, readByte]
  | cons b bs ih =>
    rcases Nat.eq_or_lt_of_le h with rfl | hlt
    · simp only [runCells, Nat.sub_self, List.getD_cons_zero]
      split
      · rename_i hb
        rw [hb]
        exact readByte_of_not_mem (fun c hc => by have := runCells_bounds hc; omega)
      · simp [readByte]
    · have e : x - a = (x - (a + 1)) + 1 := by omega
      simp only [runCells]
      split
      · rw [ih _ hlt, e, List.getD_cons_succ]
      · simp only [readByte, Nat.ne_of_lt hlt, if_false]
        rw [ih _ hlt, e, List.getD_cons_succ]

/-- A byte of the DRAM after a write: within the run it reads as written, elsewhere as before. -/
theorem readByte_writeBytes (m : List Host.Cell) (a : Nat) (bs : List Byte) (x : Nat) :
    readByte (writeBytes m a bs) x =
      if a ≤ x ∧ x < a + bs.length then bs.getD (x - a) Config.dramUnwritten else readByte m x := by
  unfold writeBytes
  split
  · rename_i h
    rw [List.append_assoc, readByte_append_right (fun c hc => by
      have := (List.mem_filter.mp hc).2
      simp only [decide_eq_true_eq] at this
      omega)]
    by_cases hm : ∃ c ∈ runCells a bs, c.1 = x
    · rw [readByte_append_left hm, readByte_runCells a bs x h.1]
    · have hm : ∀ c ∈ runCells a bs, c.1 ≠ x := fun c hc e => hm ⟨c, hc, e⟩
      rw [readByte_append_right hm, ← readByte_runCells a bs x h.1, readByte_of_not_mem hm]
      exact readByte_of_not_mem (fun c hc => by
        have := (List.mem_filter.mp hc).2
        simp only [decide_eq_true_eq] at this
        omega)
  · rename_i h
    have hr : ∀ c ∈ runCells a bs, c.1 ≠ x := fun c hc => by
      have := runCells_bounds hc
      omega
    by_cases hx : x < a
    · have e : readByte (m.filter (fun c => decide (c.1 < a))) x = readByte m x :=
        readByte_filter (fun c hc => by simp only [decide_eq_true_eq]; omega)
      by_cases hm : ∃ c ∈ m.filter (fun c => decide (c.1 < a)), c.1 = x
      · rw [List.append_assoc, readByte_append_left hm, e]
      · have hm : ∀ c ∈ m.filter (fun c => decide (c.1 < a)), c.1 ≠ x := fun c hc e => hm ⟨c, hc, e⟩
        rw [List.append_assoc, readByte_append_right hm, readByte_append_right hr, ← e, readByte_of_not_mem hm]
        exact readByte_of_not_mem (fun c hc => by
          have := (List.mem_filter.mp hc).2
          simp only [decide_eq_true_eq] at this
          omega)
    · rw [List.append_assoc, readByte_append_right (fun c hc => by
        have := (List.mem_filter.mp hc).2
        simp only [decide_eq_true_eq] at this
        omega), readByte_append_right hr]
      exact readByte_filter (fun c hc => by simp only [decide_eq_true_eq]; omega)

/-- What a byte of a canonical list reads as, when it is listed. -/
theorem readByte_of_mem {m : List Host.Cell} (h : memWf m) {c : Host.Cell} (hc : c ∈ m) : readByte m c.1 = c.2 := by
  induction m with
  | nil => simp at hc
  | cons d m ih =>
    have hp := List.pairwise_cons.mp h.1
    rcases List.mem_cons.mp hc with rfl | hc
    · simp [readByte]
    · have := hp.1 c hc
      simp only [readByte, Nat.ne_of_lt this, if_false]
      exact ih ⟨hp.2, fun e he => h.2 e (List.mem_cons_of_mem _ he)⟩ hc

end Sys2Proof.Machine
end

