-- ==== Sys2Proof/Laws/Ops.lean ====
section
/-! SUPPORT. What each shared operation can do, said once: its cases with their guards, and the invariants of the operations that
repeat. A later proof takes an operation apart with these in place of unfolding it. -/

namespace Sys2Proof.Machine

/-! ### Links -/

/-- While RSTN is low a command changes nothing; otherwise it runs. -/
theorem running_eq (s : State) (f : State → Host.Outcome State Fault Refusal) :
    (s.rstnLow = true ∧ running s f = .next s) ∨ (s.rstnLow = false ∧ running s f = f s) := by
  unfold running
  cases s.rstnLow <;> simp

/-- With a request at the head, an answer takes it off the queue and joins the outgoing records. -/
theorem answerHead_cons {s : State} {lane : Lane} {r : Request} {rest : List Request}
    (h : (s.link lane).queue = r :: rest) (code : AnswerCode) (body : List Byte) :
    answerHead lane code body s = s.modLink lane (fun k =>
      { k with queue := rest, outgoing := k.outgoing ++ [.answer ⟨r.tag, r.kind, code, body⟩] }) := by
  unfold answerHead
  rw [h]

/-- With no request there is nothing to answer. -/
theorem answerHead_nil {s : State} {lane : Lane} (h : (s.link lane).queue = []) (code : AnswerCode) (body : List Byte) :
    answerHead lane code body s = s := by
  unfold answerHead
  rw [h]

/-- A request may be executed exactly when it stands at the head and nothing of its lane is in execution. -/
theorem readyHead_eq_some {s : State} {lane : Lane} {r : Request} :
    readyHead s lane = some r ↔ laneBusy s lane = false ∧ ∃ rest, (s.link lane).queue = r :: rest := by
  unfold readyHead
  cases laneBusy s lane with
  | true => simp
  | false => cases (s.link lane).queue <;> simp

/-- What an ingest row answers: nothing happens, a rendition lane answers WRONG_LANE, or the ingest lane's own body runs. -/
theorem ingestRequest_cases (want : ReqKind) (lane : Lane) (body : Src → Request → State → State) (s : State) :
    ingestRequest want lane body s = .next s ∨
    (∃ l, lane = .rl l ∧ ingestRequest want lane body s = .next (answerHead lane .wrongLane [] s)) ∨
    ∃ x r, lane = .il x ∧ s.rstnLow = false ∧ readyHead s lane = some r ∧ requestKind r = some want ∧
      ingestRequest want lane body s = .next (body x r s) := by
  unfold ingestRequest running
  cases hl : s.rstnLow with
  | true => simp
  | false =>
    cases hr : readyHead s lane with
    | none => simp [hr]
    | some r =>
      by_cases hk : requestKind r = some want
      · cases lane with
        | il x => exact .inr (.inr ⟨x, r, rfl, rfl, rfl, hk, by simp [hk, hr]⟩)
        | rl l => exact .inr (.inl ⟨l, rfl, by simp [hk, hr]⟩)
      · simp [hk, hr]

/-- What a rendition row answers: nothing happens, an ingest lane answers WRONG_LANE, or the rendition lane's own body runs. -/
theorem renditionRequest_cases (test : Request → Bool) (lane : Lane) (body : RLane → Request → State → State) (s : State) :
    renditionRequest test lane body s = .next s ∨
    (∃ x, lane = .il x ∧ renditionRequest test lane body s = .next (answerHead lane .wrongLane [] s)) ∨
    ∃ l r, lane = .rl l ∧ s.rstnLow = false ∧ readyHead s lane = some r ∧ test r = true ∧
      renditionRequest test lane body s = .next (body l r s) := by
  unfold renditionRequest running
  cases hl : s.rstnLow with
  | true => simp
  | false =>
    cases hr : readyHead s lane with
    | none => simp [hr]
    | some r =>
      by_cases hk : test r = true
      · cases lane with
        | il x => exact .inr (.inl ⟨x, rfl, by simp [hk, hr]⟩)
        | rl l => exact .inr (.inr ⟨l, r, rfl, rfl, rfl, hk, by simp [hk, hr]⟩)
      · simp [hk, hr]

/-! ### The slot wait list and the free check -/

/-- One service of the wait list: the first entry that can be served, its choice, and the service without it. -/
theorem serveWaitOnce_eq_some {s t : State} (h : serveWaitOnce s = some t) :
    ∃ e c, s.fpc.waitList.find? (fun e => (openChoice e.source s).isSome) = some e ∧ openChoice e.source s = some c ∧
      t = serveOpen e.source e.pts c
        { s with fpc := { s.fpc with waitList := s.fpc.waitList.filter (fun w => w.source ≠ e.source) } } := by
  unfold serveWaitOnce at h
  split at h
  · cases h
  · rename_i e he
    split at h
    · cases h
    · rename_i c hc
      exact ⟨e, c, he, hc, (Option.some.inj h).symm⟩

/-- No service is made exactly when no entry can be served. -/
theorem serveWaitOnce_eq_none {s : State} :
    serveWaitOnce s = none ↔ ∀ e, e ∈ s.fpc.waitList → openChoice e.source s = none := by
  constructor
  · intro h e he
    unfold serveWaitOnce at h
    split at h
    · rename_i hf
      have := List.find?_eq_none.mp hf e he
      simpa using this
    · rename_i d hd
      have hs := List.find?_some hd
      split at h
      · rename_i hc
        simp [hc] at hs
      · cases h
  · intro h
    unfold serveWaitOnce
    have : s.fpc.waitList.find? (fun e => (openChoice e.source s).isSome) = none := by
      rw [List.find?_eq_none]
      intro e he
      simp [h e he]
    rw [this]

/-- What every single service keeps, serving the whole list keeps. -/
theorem serveWaitList_inv (P : State → Prop) (h : ∀ s t, P s → serveWaitOnce s = some t → P t) (s : State) (hs : P s) :
    P (serveWaitList s) := by
  unfold serveWaitList
  generalize s.fpc.waitList.length = n
  induction n generalizing s with
  | zero => exact hs
  | succ n ih =>
    unfold serveWait
    split
    · rename_i t ht
      exact ih t (h s t hs ht)
    · exact hs

/-- What the examining of a slot can do: nothing; serve the wait list; or free a STALE slot that nothing holds and no lane is owed,
and then serve the wait list. -/
theorem examineSlot_cases (was : Slot) (k : Nat) (s : State) :
    examineSlot was k s = s ∨ examineSlot was k s = serveWaitList s ∨
    ∃ f v owed, s.slot k = .analysed false f v 0 owed ∧ laneSetEmpty owed = true ∧
      examineSlot was k s = serveWaitList (s.setSlot k .free) := by
  unfold examineSlot
  split
  · rename_i f v owed hk
    by_cases he : laneSetEmpty owed = true
    · exact .inr (.inr ⟨f, v, owed, hk, he, by simp [he]⟩)
    · simp only [he]
      cases wasCandidate was <;> simp
  · exact .inl rfl

/-- What every examining keeps, settling keeps. -/
theorem settle_inv (P : State → Prop) (h : ∀ was k s, P s → P (examineSlot was k s)) (before : List Slot) (s : State) (hs : P s) :
    P (settle before s) := by
  unfold settle
  refine foldl_inv P _ (fun t k ht => ?_) _ s hs
  split
  · exact h _ _ _ ht
  · exact ht

/-- An eviction acts on an analysed slot alone. -/
theorem evictFrame_of_not_analysed (k : Nat) (s : State) (h : ∀ c f v n o, s.slot k ≠ .analysed c f v n o) : evictFrame k s = s := by
  unfold evictFrame
  split
  · rename_i c f v n o hk
    exact absurd hk (h _ _ _ _ _)
  · rfl

/-- A claim acts on an analysed slot alone. -/
theorem takeFrame_of_not_analysed (l : RLane) (b : Binding) (k : Nat) (s : State) (h : ∀ c f v n o, s.slot k ≠ .analysed c f v n o) :
    takeFrame l b k s = s := by
  unfold takeFrame
  split
  · rename_i c f v n o hk
    exact absurd hk (h _ _ _ _ _)
  · rfl

/-! ### The Memory Scheduler -/

/-- What a grant choice can do: nothing, or, on an IDLE DRAM with no refresh due, grant a waiting request that its balance covers. -/
theorem makeGrant_cases (s : State) :
    makeGrant s = s ∨
    ∃ r c, s.ms.dram = .idle ∧ s.ms.refreshDue = false ∧ grantChoice s.ms = some r ∧ s.ms.waiting.get r = some c ∧
      makeGrant s = beginBand r { s with ms := chargeGrant s.ms r c (jobOf s r) } := by
  unfold makeGrant
  split
  · rename_i hd hf
    split
    · exact .inl rfl
    · rename_i r hr
      split
      · exact .inl rfl
      · rename_i c hc
        exact .inr ⟨r, c, hd, hf, hr, hc, rfl⟩
  · exact .inl rfl

/-- The DRAM after it has carried what it had: a due refresh begins, otherwise it is IDLE; what it carried leaves the room. -/
theorem dramFree_cases (m : Scheduler) :
    (m.refreshDue = true ∧
      dramFree m = { m with dram := .refresh 500, refreshDue := false, room := m.room - dramLoad m.dram }) ∨
    (m.refreshDue = false ∧ dramFree m = { m with dram := .idle, room := m.room - dramLoad m.dram }) := by
  unfold dramFree
  cases h : m.refreshDue <;> simp [Config.refreshUnits]

/-- A burst or refresh may complete exactly when what it still has to carry fits into the room. -/
theorem mayComplete_iff (m : Scheduler) : mayComplete m = true ↔ dramLoad m.dram ≤ m.room := by
  simp [mayComplete]

/-- What the DRAM's end within the current microsecond can be. -/
theorem dueDram_eq_some {m : Scheduler} {c : Instr} (h : dueDram m = some c) :
    dramLoad m.dram ≤ m.room ∧
    ((∃ n, m.dram = .refresh n ∧ c = .refreshComplete) ∨
      ∃ b, m.dram = .burst b ∧
        ((∃ x a data, b.job = .ingest x a data ∧ c = .ingestBurstComplete) ∨
          (b.job = .detector ∧ c = .detectorRowBurstComplete) ∨ ∃ l, b.job = .band l ∧ c = .bandBurstComplete)) := by
  unfold dueDram at h
  split at h
  · cases h
  · rename_i n hd
    split at h
    · rename_i hm
      exact ⟨(mayComplete_iff m).mp hm, .inl ⟨n, hd, (Option.some.inj h).symm⟩⟩
    · cases h
  · rename_i b hd
    split at h
    · cases h
    · rename_i hm
      refine ⟨(mayComplete_iff m).mp (by simpa using hm), .inr ⟨b, hd, ?_⟩⟩
      split at h <;> rename_i hj <;> simp_all

/-! ### The Change Detector -/

/-- What starting an analysis can do: nothing, drop a queue entry that is no QUEUED slot, or start on the slot at the head. -/
theorem startAnalysis_cases (s : State) :
    startAnalysis s = s ∨
    (∃ k rest, s.cd.ctx = none ∧ s.cd.queue = k :: rest ∧ (∀ f, s.slot k ≠ .queued f) ∧
      startAnalysis s = { s with cd := { s.cd with queue := rest } }) ∨
    ∃ k rest f, s.cd.ctx = none ∧ s.cd.queue = k :: rest ∧ s.slot k = .queued f ∧
      startAnalysis s = placeRequest .det (detectorRowCost (s.cols f.source)) { s.setSlot k (.analysing f) with
        cd := { s.cd with
          queue := rest, ctx := some (startCtx s k f), laterWrites := s.cd.laterWrites.set f.source 0 } } := by
  unfold startAnalysis
  split
  · rename_i k rest hc hq
    split
    · rename_i f hk
      exact .inr (.inr ⟨k, rest, f, hc, hq, hk, rfl⟩)
    · rename_i hn
      exact .inr (.inl ⟨k, rest, hc, hq, fun f hf => hn f hf, rfl⟩)
  · exact .inl rfl

/-! ### The management frame -/

/-- A new frame, whatever the level of CSN before: CSN is low, the buffer is empty and the frame is RECEIVING. -/
theorem newFrame_eq (m : Mlu) :
    newFrame m = { m with csnLow := true, staging := [], frame := .receiving, result := none, sent := [] } := by
  unfold newFrame frameRise frameFall
  cases h : m.csnLow <;> simp [h]

@[simp] theorem newFrame_cause (m : Mlu) : (newFrame m).cause = m.cause := by rw [newFrame_eq]

@[simp] theorem newFrame_counters (m : Mlu) : (newFrame m).counters = m.counters := by rw [newFrame_eq]

@[simp] theorem frameFall_cause (m : Mlu) : (frameFall m).cause = m.cause := by unfold frameFall; split <;> rfl

@[simp] theorem frameFall_counters (m : Mlu) : (frameFall m).counters = m.counters := by unfold frameFall; split <;> rfl

@[simp] theorem frameRise_cause (m : Mlu) : (frameRise m).cause = m.cause := by unfold frameRise; split <;> rfl

@[simp] theorem frameRise_counters (m : Mlu) : (frameRise m).counters = m.counters := by unfold frameRise; split <;> rfl

/-- After CSN's rise the frame is IDLE, when it is IDLE whenever CSN is high. -/
theorem frameRise_idle (m : Mlu) (h : m.csnLow = false → m.frame = .idle) :
    (frameRise m).csnLow = false ∧ (frameRise m).frame = .idle := by
  unfold frameRise
  cases hc : m.csnLow <;> simp_all

/-- What one byte does: nothing with no frame taken; a byte more in the buffer; the execution of the command that it completes; or one
byte more of the frame's answer. -/
theorem clockByte_cases (b : Byte) (s : State) :
    (s.mlu.frame = .idle ∧ clockByte b s = s) ∨
    (s.mlu.frame = .receiving ∧ frameComplete (s.mlu.staging ++ [b]) = false ∧
      clockByte b s = { s with mlu := { s.mlu with staging := s.mlu.staging ++ [b] } }) ∨
    (s.mlu.frame = .receiving ∧ ∃ code len payload, s.mlu.staging ++ [b] = code :: len :: payload ∧
      frameComplete (code :: len :: payload) = true ∧
      clockByte b s = closeFrame (code :: len :: payload)
        (commandReply code payload { s with mlu := { s.mlu with staging := code :: len :: payload } })) ∨
    ((s.mlu.frame = .executed ∨ s.mlu.frame = .result) ∧ ∃ f, f ≠ .idle ∧ f ≠ .receiving ∧
      clockByte b s = { s with mlu := { s.mlu with
        sent := s.mlu.sent ++ [resultByte s.mlu s.mlu.sent.length], frame := f } }) := by
  rcases hf : s.mlu.frame with _ | _ | _ | _
  · exact .inl ⟨rfl, by simp [clockByte, hf]⟩
  · refine .inr ?_
    cases hc : frameComplete (s.mlu.staging ++ [b]) with
    | false => exact .inl ⟨rfl, rfl, by simp [clockByte, hf, hc]⟩
    | true =>
      refine .inr (.inl ⟨rfl, ?_⟩)
      match hs : s.mlu.staging ++ [b] with
      | [] => rw [hs] at hc; cases hc
      | [_] => rw [hs] at hc; cases hc
      | code :: len :: payload =>
        rw [hs] at hc
        exact ⟨code, len, payload, rfl, hc, by simp [clockByte, hf, hs, hc, executeFrame]⟩
  · exact .inr (.inr (.inr ⟨.inl rfl, if s.mlu.sent.length + 1 < 2 then .executed else .result, by split <;> simp,
      by split <;> simp, by simp [clockByte, hf]⟩))
  · exact .inr (.inr (.inr ⟨.inr rfl, .result, by simp, by simp, by simp [clockByte, hf]⟩))

/-! ### Management commands and the step -/

/-- A management command while RSTN is high: its own frame is opened, the command is executed, and the frame is closed over what it
leaves. -/
theorem takeCommand_eq (code : Byte) (payload : List Byte) {s : State} (h : s.rstnLow = false) :
    takeCommand code payload s = .next (closeFrame (code :: BitVec.ofNat 8 payload.length :: payload)
      (commandReply code payload { s with mlu :=
        { newFrame s.mlu with staging := code :: BitVec.ofNat 8 payload.length :: payload } })) := by
  simp [takeCommand, running, h, executeFrame]

@[simp] theorem commandReply_setPlan (p : List Byte) (s : State) :
    commandReply 1 p s = ofLength 9 p (replySetPlan p s) s := rfl
@[simp] theorem commandReply_setDetect (p : List Byte) (s : State) :
    commandReply 2 p s = ofLength 7 p (replySetDetect p s) s := rfl
@[simp] theorem commandReply_setSchedule (p : List Byte) (s : State) :
    commandReply 3 p s = ofLength 15 p (replySetSchedule p s) s := rfl
@[simp] theorem commandReply_setRoute (p : List Byte) (s : State) :
    commandReply 4 p s = ofLength 17 p (replySetRoute p s) s := rfl
@[simp] theorem commandReply_setCue (p : List Byte) (s : State) :
    commandReply 5 p s = ofLength 5 p (replySetCue p s) s := rfl
@[simp] theorem commandReply_setCadence (p : List Byte) (s : State) :
    commandReply 6 p s = ofLength 4 p (replySetCadence p s) s := rfl
@[simp] theorem commandReply_setChapters (p : List Byte) (s : State) :
    commandReply 7 p s = ofLength 4 p (replySetChapters p s) s := rfl
@[simp] theorem commandReply_setLaneLimits (p : List Byte) (s : State) :
    commandReply 8 p s = ofLength 7 p (replySetLaneLimits p s) s := rfl
@[simp] theorem commandReply_attrWrite (p : List Byte) (s : State) :
    commandReply 16 p s = ofLength 6 p (replyAttrWrite p s) s := rfl
@[simp] theorem commandReply_attrRead (p : List Byte) (s : State) :
    commandReply 17 p s = ofLength 5 p (replyAttrRead p s) s := rfl
@[simp] theorem commandReply_badgeWrite (p : List Byte) (s : State) :
    commandReply 18 p s = ofLength (4 + 8 * badgeLineCount p) p (replyBadgeWrite p s) s := rfl
@[simp] theorem commandReply_readStatus (p : List Byte) (s : State) :
    commandReply 32 p s = ofLength 0 p (replyReadStatus s) s := rfl
@[simp] theorem commandReply_readCounters (p : List Byte) (s : State) :
    commandReply 33 p s = ofLength 1 p (replyReadCounters p s) s := rfl
@[simp] theorem commandReply_popChapters (p : List Byte) (s : State) :
    commandReply 34 p s = ofLength 1 p (replyPopChapters p s) s := rfl
@[simp] theorem commandReply_readMarkers (p : List Byte) (s : State) :
    commandReply 35 p s = ofLength 1 p (replyReadMarkers p s) s := rfl
@[simp] theorem commandReply_readResetCause (p : List Byte) (s : State) :
    commandReply 36 p s = ofLength 0 p (replyReadResetCause s) s := rfl
@[simp] theorem commandReply_clearResetCause (p : List Byte) (s : State) :
    commandReply 37 p s = ofLength 2 p (replyClearResetCause p s) s := rfl
@[simp] theorem commandReply_softReset (p : List Byte) (s : State) :
    commandReply 48 p s = ofLength 0 p (replySoftReset s) s := rfl
@[simp] theorem commandReply_laneReset (p : List Byte) (s : State) :
    commandReply 49 p s = ofLength 1 p (replyLaneReset p s) s := rfl

/-- A code outside the table is refused. -/
theorem commandReply_unknown (code : Byte) (p : List Byte) (s : State) (h : commandCodes.contains code.toNat = false) :
    commandReply code p s = refuse .badArg s := by
  unfold commandReply
  split <;> first | rfl | (rename_i hc; rw [hc] at h; cases h)

/-- What a step can be: the front command's execution, nothing under RSTN, a due event, or the passing of a microsecond. -/
theorem step_cases (s : State) :
    (∃ c rest, s.pending = c :: rest ∧ step s = exec c { s with pending := rest }) ∨
    (s.pending = [] ∧ s.rstnLow = true ∧ step s = .next s) ∨
    (∃ c, s.pending = [] ∧ s.rstnLow = false ∧ dueEvent s = some c ∧ step s = exec c s) ∨
    (s.pending = [] ∧ s.rstnLow = false ∧ dueEvent s = none ∧ step s = .next (tick s)) := by
  unfold step idleStep running
  cases hp : s.pending with
  | cons c rest => exact .inl ⟨c, rest, rfl, rfl⟩
  | nil =>
    cases hl : s.rstnLow with
    | true => simp
    | false =>
      cases hd : dueEvent s with
      | some c => exact .inr (.inr (.inl ⟨c, rfl, rfl, rfl, by simp [hd]⟩))
      | none => simp [hd]

end Sys2Proof.Machine
end

