-- ==== Sys2Proof/WellFormed.lean ====
section
/-! DEFINITION. Which terms of `Instr` stand for something that can reach the part.
A term that fails its check is no event of the part: nothing outside can produce it. -/

namespace Sys2Proof

/-- A management payload's length is one byte's worth, 0 to 255 (R186). -/
def payloadFits (payload : List Byte) : Bool := decide (payload.length ≤ 255)

/-- The checks: a management payload fits its length byte (R186), an unknown command's code is outside the
command table (R188), and a frame that was cut off was not yet complete (R187). -/
def Instr.wellFormed : Instr → Bool
  | .powerOnReset => true
  | .boardReset => true
  | .setPlan p => payloadFits p
  | .setDetect p => payloadFits p
  | .setSchedule p => payloadFits p
  | .setRoute p => payloadFits p
  | .setCue p => payloadFits p
  | .setCadence p => payloadFits p
  | .setChapters p => payloadFits p
  | .setLaneLimits p => payloadFits p
  | .attrWrite p => payloadFits p
  | .attrRead p => payloadFits p
  | .badgeWrite p => payloadFits p
  | .readStatus p => payloadFits p
  | .readCounters p => payloadFits p
  | .popChapters p => payloadFits p
  | .readMarkers p => payloadFits p
  | .readResetCause p => payloadFits p
  | .clearResetCause p => payloadFits p
  | .softReset p => payloadFits p
  | .laneReset p => payloadFits p
  | .unknownCommand code p => payloadFits p && !commandCodes.contains code.toNat
  | .managementFrameCutOff (.whole staged) => !frameComplete staged
  | .managementFrameCutOff .fall => true
  | .managementFrameCutOff (.byte _) => true
  | .managementFrameCutOff .rise => true
  | .linkTrainingComplete _ => true
  | .linkLoss _ => true
  | .recordReceived _ _ => true
  | .malformedRequest _ => true
  | .openFrame _ => true
  | .putRows _ => true
  | .sealFrame _ => true
  | .abandonFrame _ => true
  | .bind _ => true
  | .unbind _ => true
  | .claimNext _ => true
  | .claimLatest _ => true
  | .claimNumber _ => true
  | .release _ => true
  | .fetch _ => true
  | .fetchMaskFrame _ => true
  | .fetchMaskSince _ => true
  | .subscribe _ => true
  | .openWaitDeadline _ => true
  | .claimWaitDeadline _ => true
  | .ingestBurstComplete => true
  | .detectorRowBurstComplete => true
  | .bandBurstComplete => true
  | .transmitRecord _ _ => true
  | .periodEvent => true
  | .refreshComplete => true
  | .cadenceExpiry _ => true
  | .cueEdge _ => true
  | .spacingHoldEnd => true
  | .cueAgeExpiry => true
  | .markerPulseEnd _ => true
  | .rstnAsserted => true

end Sys2Proof
end

