-- ==== Sys2Proof/Tests/Slice0.lean ====
section
/-! SUPPORT. Tests of the model against the manual's own worked sequences, a smoke test for every check of WellFormed, and for
every statement with hypotheses a state and operands that meet them. Every expected value is the manual's. -/

namespace Sys2Proof.Tests

open Sys2Proof Sys2Proof.Machine Sys2Proof.Claims

/-! ### Helpers -/

/-- The state after a command; the state before it where the command stops. -/
def after (c : Instr) (s : State) : State :=
  match exec c s with
  | .next t => t
  | _ => s

/-- The result code of the management command just executed. -/
def code (s : State) : Option AnswerCode := s.mlu.result.map CommandResult.code

/-- The result data of the management command just executed. -/
def data (s : State) : List Byte := (s.mlu.result.map CommandResult.data).getD []

def atTime (t : Nat) (s : State) : State := { s with tcu := { s.tcu with time := BitVec.ofNat 32 t } }

/-- The lane is UP and the request stands alone in its queue. -/
def asks (lane : Lane) (kind : Byte) (payload : List Byte) (s : State) : State :=
  s.modLink lane (fun k => { k with up := true, queue := [{ kind := kind, tag := 9, payload := payload }] })

/-- The code and body of the lane's newest waiting answer. -/
def answer (lane : Lane) (s : State) : Option (AnswerCode × List Byte) :=
  match (s.link lane).outgoing.getLast? with
  | some (.answer a) => some (a.code, a.body)
  | _ => none

/-- The state numbers of the slots with their hold counts and owed sets. -/
def pool (s : State) : List (Nat × Nat × Nat) :=
  s.fpc.slots.map (fun k => (slotStateNum (slotState k), slotHolds k, owedBits (slotOwed k)))

/-- The burst or refresh under way has carried all its units. -/
def carried (s : State) : State :=
  { s with ms := { s.ms with dram := match s.ms.dram with
      | .burst b => .burst { b with remaining := 0 }
      | .refresh _ => .refresh 0
      | .idle => .idle } }

def picture (x : Src) (n : Nat) : SealedFrame := { source := x, number := BitVec.ofNat 32 n, pts := 7, arrival := 0 }

def patch : Verdict :=
  { cls := .patch, flags := { first := false, cue := false, chapter := false, attr := false }, changed := 1, active := 2,
    mask := 3 }

def shown (cur : Bool) (x : Src) (n holds : Nat) (owed : PerRL Bool) : Slot := .analysed cur (picture x n) patch holds owed

def nobody : PerRL Bool := ⟨false, false, false, false⟩
def owedR0 : PerRL Bool := ⟨true, false, false, false⟩
def owedR2 : PerRL Bool := ⟨false, false, true, false⟩

def half : Window := { x0 := 0, y0 := 0, w := 1920, h := 1088, d := 2, badge := false }

/-- A plan of eight slots with both sources at 30 × 17 tiles and quotas 4 and 5 (chapter 1.7). -/
def plan8 : Plan :=
  { slots := 8
    source := ⟨{ enabled := true, cols := 30, rows := 17, quota := 4 }, { enabled := true, cols := 30, rows := 17, quota := 5 }⟩ }

/-- The starting state of chapter 1.7's worked sequence. -/
def pressure : State :=
  let s : State := State.reset
  { s with
    fpc := { s.fpc with
      plan := some plan8, poolLow := 2
      slots := [shown false .s1 40 1 nobody, shown false .s1 41 0 owedR0, shown false .s1 42 0 owedR0,
        shown true .s1 43 0 owedR0, shown false .s0 117 1 nobody, shown true .s0 118 0 owedR2, .free, .free]
      current := ⟨some 5, some 3⟩, nextFrame := ⟨119, 44⟩ }
    il := ⟨{ s.il.s0 with openLimit := 20 }, s.il.s1⟩
    rl := { s.rl with
      r0 := { s.rl.r0 with
        binding := some { source := .s1, window := half }, mark := some 40
        holds := [{ slot := 0, frame := 40, window := half }] }
      r1 := { s.rl.r1 with binding := some { source := .s1, window := half }, mark := some 43 }
      r2 := { s.rl.r2 with
        binding := some { source := .s0, window := half }, mark := some 117
        holds := [{ slot := 4, frame := 117, window := half }] } }
    clr := { s.clr with generators := [.evict .s1, .poolLow, .off, .off, .off, .off], mgmtSubs := 3 } }

/-- The sequence after both lanes have opened a frame, with every row written. -/
def filled : State :=
  let s := after (.openFrame (.il .s1)) (asks (.il .s1) 1 [0, 0, 0, 0, 0, 1]
    (after (.openFrame (.il .s0)) (asks (.il .s0) 1 [0, 0, 0, 0, 0, 2] pressure)))
  { s with fpc := { s.fpc with slots := (s.fpc.slots.set 6 (.filling .s0 2 17)).set 7 (.filling .s1 1 17) } }

/-- The sequence after both seals, at the value of chapter 2.7's stamp. -/
def sealed : State :=
  after (.sealFrame (.il .s0)) (asks (.il .s0) 3 [] (after (.sealFrame (.il .s1)) (asks (.il .s1) 3 [] (atTime 8105220 filled))))

/-! ### WellFormed refuses what cannot reach the part -/

def tooLong : List Byte := List.replicate 256 0

theorem test_wellFormed_refuses_long_payloads :
    [Instr.setPlan tooLong, .setDetect tooLong, .setSchedule tooLong, .setRoute tooLong, .setCue tooLong, .setCadence tooLong,
      .setChapters tooLong, .setLaneLimits tooLong, .attrWrite tooLong, .attrRead tooLong, .badgeWrite tooLong,
      .readStatus tooLong, .readCounters tooLong, .popChapters tooLong, .readMarkers tooLong, .readResetCause tooLong,
      .clearResetCause tooLong, .softReset tooLong, .laneReset tooLong, .unknownCommand 9 tooLong].all
      (fun c => !c.wellFormed) = true := by decide +kernel

theorem test_wellFormed_refuses_known_code : Instr.wellFormed (.unknownCommand 49 []) = false := by decide
theorem test_wellFormed_takes_unknown_code : Instr.wellFormed (.unknownCommand 50 []) = true := by decide
theorem test_wellFormed_refuses_complete_cut_off : Instr.wellFormed (.managementFrameCutOff (.whole [32, 0])) = false := by decide
theorem test_wellFormed_takes_cut_off : Instr.wellFormed (.managementFrameCutOff (.whole [1, 9, 8])) = true := by decide
theorem test_no_word_spells_a_command : decodeTableWord 16 32 = none := by decide

/-! ### The frame pool (chapter 1.7) -/

/-- Step 1: slot 6 is allocated, and POOL_LOW fires on channel 1. -/
theorem test_open_allocates_lowest_free :
    answer (.il .s0) (after (.openFrame (.il .s0)) (asks (.il .s0) 1 [0, 0, 0, 0, 0, 2] pressure)) = some (.ok, [6]) ∧
    (filled.clr.markers.map MarkerEntry.channel) = [1] := by decide +kernel

/-- Step 3 and chapter 2.7, step 5: the seal's answer, the next numbers and the analysis queue behind slot 7. -/
theorem test_seal_numbers_and_queues :
    answer (.il .s1) sealed = some (.ok, [0, 0, 0, 44, 0, 123, 173, 4]) ∧ sealed.fpc.nextFrame = ⟨120, 45⟩ ∧
    sealed.cd.queue = [6] ∧ sealed.cd.ctx.map AnalysisCtx.slot = some 7 := by decide +kernel

/-- Chapter 2.7, step 3: rows written 16 of 17. -/
theorem test_seal_incomplete :
    answer (.il .s1) (after (.sealFrame (.il .s1)) (asks (.il .s1) 3 []
      { filled with fpc := { filled.fpc with slots := filled.fpc.slots.set 7 (.filling .s1 1 16) } })) =
      some (.incomplete, [16]) := by decide +kernel

/-- Step 6: an open of source 1 at its quota evicts frame 41, and RL0 gets LOST. -/
theorem test_open_evicts_lowest :
    let t := after (.openFrame (.il .s1)) (asks (.il .s1) 1 [0, 0, 0, 0, 0, 3]
      { sealed with fpc := { sealed.fpc with slots := sealed.fpc.slots.set 3 (shown false .s1 43 0 owedR0) } })
    answer (.il .s1) t = some (.ok, [1]) ∧ t.rl.r0.notices = [.lost .s1 41] ∧ t.rl.r0.lost = 1 ∧
    t.mlu.counters.s1.evictions = 1 ∧ (t.clr.markers.map MarkerEntry.channel) = [1, 0] := by decide +kernel

/-- Steps 5 and 7: the open of source 0 waits to 20,000 µs from now; RL2's release frees slot 4 and serves it. -/
theorem test_wait_and_release_serves :
    let w := after (.openFrame (.il .s0)) (asks (.il .s0) 1 [0, 0, 0, 0, 0, 4] sealed)
    let t := after (.release (.rl .r2)) (asks (.rl .r2) 20 [4] w)
    w.fpc.waitList.map WaitEntry.deadline = [8125220] ∧ answer (.il .s0) t = some (.ok, [4]) ∧
    t.fpc.slots[4]? = some (.filling .s0 4 0) ∧ t.fpc.waitList = [] ∧ t.clr.markers.length = 1 := by decide +kernel

theorem test_abandon_frees_slot :
    let t := after (.abandonFrame (.il .s0)) (asks (.il .s0) 4 [] filled)
    t.fpc.slots[6]? = some .free ∧ t.il.s0.openFrame = none ∧ t.fpc.nextFrame.s0 = 119 := by decide +kernel

theorem test_open_wait_deadline :
    let w := after (.openFrame (.il .s0)) (asks (.il .s0) 1 [0, 0, 0, 0, 0, 4] sealed)
    let t := after (.openWaitDeadline .s0) (atTime 8125220 w)
    answer (.il .s0) t = some (.poolFull, []) ∧ t.mlu.counters.s0.drops = 1 ∧
    (after (.openWaitDeadline .s0) (atTime 8125219 w)).fpc.waitList = w.fpc.waitList := by decide +kernel

/-- RL0's reset frees the two slots it held, one after another: each serves an open that waits, and nothing is evicted (R18, R23). -/
theorem test_lane_reset_serves_waiting_opens :
    let asked := asks (.il .s0) 1 [0, 0, 0, 0, 0, 4] (asks (.il .s1) 1 [0, 0, 0, 0, 0, 5] pressure)
    let t := after (.laneReset [2]) { asked with
      fpc := { asked.fpc with
        slots := (asked.fpc.slots.set 1 (shown false .s1 41 1 nobody) |>.set 2 (shown false .s1 42 1 nobody)).take 6
        waitList := [{ source := .s0, pts := 4, deadline := 20000 }, { source := .s1, pts := 5, deadline := 20000 }] }
      rl := { asked.rl with r0 := { asked.rl.r0 with
        holds := asked.rl.r0.holds ++ [{ slot := 1, frame := 41, window := half }] } } }
    t.fpc.slots.take 2 = [.filling .s0 4 0, .filling .s1 5 0] ∧ t.fpc.waitList = [] ∧ t.mlu.counters.s1.evictions = 0 ∧
    t.clr.markers = [] := by decide +kernel

/-! ### Rows and the DRAM (chapter 2.7) -/

/-- A pool of one small source: 1 × 1 tiles, six slots, quota 3. -/
def small : State :=
  let s : State := State.reset
  { s with
    fpc := { s.fpc with
      plan := some { slots := 6, source := ⟨{ enabled := true, cols := 1, rows := 1, quota := 3 },
        { enabled := false, cols := 1, rows := 1, quota := 0 }⟩ }
      slots := [.free, .free, .filling .s0 5 0, .free, .free, .free] }
    il := { s.il with s0 := { s.il.s0 with openFrame := some 2 } } }

def row : List Byte := List.replicate 6144 200

/-- A row out of order reports the rows written (R35). -/
theorem test_put_rows_order :
    answer (.il .s0) (after (.putRows (.il .s0)) (asks (.il .s0) 2 (0 :: row)
      { small with fpc := { small.fpc with slots := small.fpc.slots.set 2 (.filling .s0 5 1) } })) = some (.order, [1]) := by
  decide +kernel

/-- A row that passes is burst at cost 2 + 24, and its bytes lie in slot 2, 12,288 bytes into the DRAM. -/
theorem test_ingest_burst_writes_row :
    let w := after (.putRows (.il .s0)) (asks (.il .s0) 2 (0 :: row) small)
    let t := after .ingestBurstComplete (carried w)
    w.ms.balance.il.s0 = 1974 ∧ answer (.il .s0) t = some (.ok, [1]) ∧ readByte t.mem 12288 = 200 ∧
    readByte t.mem 18431 = 200 ∧ readByte t.mem 12287 = 0 ∧ readByte t.mem 18432 = 0 ∧ t.ms.dram = .idle := by
  decide +kernel

/-! ### Change detection (chapter 3) -/

/-- R53's three sums. -/
theorem test_sub_block_means : [51150, 10300, 50900, 65280].map subBlockMean = [200, 40, 199, 255] := by decide

/-- Chapter 3.12, frame 212: the means of tile 137 and its distance from a signature of 200. -/
theorem test_tile_distance :
    tileDistance [200, 199, 200, 201, 199, 40, 40, 200, 201, 40, 40, 199, 200, 201, 200, 200] (List.replicate 16 200) = 646 := by
  decide

/-- Chapter 8.5: cue A ages to 3 over three HOLD frames under a window of 3, and is a miss. -/
theorem test_cue_expires :
    examineCues .s1 20076667 .hold 3 [{ stamp := 20000000, target := .s1, waited := 2 }] = ([], false, 1) ∧
    examineCues .s1 20043333 .hold 3 [{ stamp := 20000000, target := .s1, waited := 1 }] =
      ([{ stamp := 20000000, target := .s1, waited := 2 }], false, 0) := by decide +kernel

/-- Chapter 8.5: frame 714 arrived before the press, frame 715 after it. -/
theorem test_cue_promotes :
    examineCues .s1 20476667 .patch 3 [{ stamp := 20480000, target := .s1, waited := 0 }] =
      ([{ stamp := 20480000, target := .s1, waited := 0 }], false, 0) ∧
    examineCues .s1 20510000 .patch 3 [{ stamp := 20480000, target := .s1, waited := 0 }] = ([], true, 0) := by decide +kernel

/-- The small pool's frame sealed: the first frame of a source is SCENE with FIRST, every tile changed (R55, R58, R65). -/
theorem test_first_frame_completes :
    let s := { small with fpc := { small.fpc with slots := small.fpc.slots.set 2 (.filling .s0 5 1) } }
    let t := after .detectorRowBurstComplete (carried (after (.sealFrame (.il .s0)) (asks (.il .s0) 3 [] s)))
    t.fpc.current.s0 = some 2 ∧
    t.fpc.slots[2]? = some (.analysed true { source := .s0, number := 0, pts := 5, arrival := 0 }
      { cls := .scene, flags := { first := true, cue := false, chapter := false, attr := false }, changed := 1, active := 1,
        mask := 1 } 0 nobody) := by decide +kernel

/-! ### Claims, masks and read-out (chapters 5 and 6) -/

/-- Chapter 1.7, steps 9 to 11, from a pool in which frame 41 is gone: RL0 claims NEXT, releases slot 0, and claims LATEST. -/
def rl0Next : State :=
  after (.claimNext (.rl .r0)) (asks (.rl .r0) 19 [0, 0, 0, 0, 0]
    { pressure with fpc := { pressure.fpc with
        slots := (pressure.fpc.slots.set 1 (.filling .s1 3 0)).set 3 (shown false .s1 43 0 owedR0) |>.set 7
          (shown true .s1 44 0 ⟨true, true, false, false⟩)
        current := ⟨some 5, some 7⟩, nextFrame := ⟨119, 45⟩ } })

def rl0Latest : State :=
  after (.claimLatest (.rl .r0)) (asks (.rl .r0) 19 [1, 0, 0, 0, 0] (after (.release (.rl .r0)) (asks (.rl .r0) 20 [0] rl0Next)))

theorem test_claim_next :
    pool rl0Next = [(5, 1, 0), (1, 0, 0), (5, 1, 0), (5, 0, 1), (5, 1, 0), (4, 0, 4), (0, 0, 0), (4, 0, 3)] ∧
    rl0Next.rl.r0.skipped = 1 ∧ rl0Next.rl.r0.mark = some 42 := by decide +kernel

theorem test_claim_latest_frees_slots :
    pool rl0Latest = [(0, 0, 0), (1, 0, 0), (5, 1, 0), (0, 0, 0), (5, 1, 0), (4, 0, 4), (0, 0, 0), (4, 1, 2)] ∧
    rl0Latest.rl.r0.skipped = 2 ∧ rl0Latest.rl.r0.mark = some 44 ∧
    answer (.rl .r0) (after (.claimLatest (.rl .r0)) (asks (.rl .r0) 19 [1, 0, 0, 0, 0] rl0Latest)) = some (.holdLimit, []) := by
  decide +kernel

/-- Chapter 5.7, steps 4, 5 and 12, on the pool of chapter 1.7: a number gone, one not yet sealed, one at the mark. -/
theorem test_claim_number_refusals :
    let ask := fun (n : Byte) => (answer (.rl .r0) (after (.claimNumber (.rl .r0)) (asks (.rl .r0) 19 [2, 0, 0, 0, n]
      { rl0Next with rl := { rl0Next.rl with r0 := { rl0Next.rl.r0 with mark := some 40, holds := [] } } }))).map Prod.fst
    ask 41 = some .gone ∧ ask 45 = some .notYet ∧ ask 40 = some .order ∧ ask 42 = some .ok := by decide +kernel

theorem test_claim_wait_deadline :
    let s := { pressure with rl := { pressure.rl with r1 := { pressure.rl.r1 with mark := some 43 } } }
    let w := after (.claimNext (.rl .r1)) (asks (.rl .r1) 19 [0, 0, 0, 0, 0] s)
    w.rl.r1.pendingClaim = some { tag := 9, deadline := 40000 } ∧
    answer (.rl .r1) (after (.claimWaitDeadline .r1) (atTime 40000 w)) = some (.noFrame, []) := by decide +kernel

/-- R91's window of w = 1,920 and d = 2 costs 182; R93 refuses it under a cap of 180. -/
theorem test_bind_checks_cost :
    let p : List Byte := [0, 0, 0, 0, 0, 7, 128, 4, 64, 2, 0]
    let tight := { pressure with ms := { pressure.ms with schedule := { pressure.ms.schedule with
      allowance := { pressure.ms.schedule.allowance with rl := ⟨2000, 2000, 2000, 90⟩ } } } }
    answer (.rl .r3) (after (.bind (.rl .r3)) (asks (.rl .r3) 17 p pressure)) = some (.ok, [3, 192, 2, 32, 68]) ∧
    (after (.bind (.rl .r3)) (asks (.rl .r3) 17 p pressure)).rl.r3.mark = some 117 ∧
    answer (.rl .r3) (after (.bind (.rl .r3)) (asks (.rl .r3) 17 p tight)) = some (.windowCost, []) ∧
    bandCost half = 182 := by decide +kernel

theorem test_unbind_leaves_owed_sets :
    answer (.rl .r2) (after (.unbind (.rl .r2)) (asks (.rl .r2) 18 [] pressure)) = some (.busy, []) ∧
    pool (after (.unbind (.rl .r1)) (asks (.rl .r1) 18 [] rl0Next)) =
      [(5, 1, 0), (1, 0, 0), (5, 1, 0), (5, 0, 1), (5, 1, 0), (4, 0, 4), (0, 0, 0), (4, 0, 1)] := by decide +kernel

theorem test_subscribe_takes_six_bits :
    (after (.subscribe (.rl .r3)) (asks (.rl .r3) 23 [255] State.reset)).rl.r3.subs = 63 := by decide +kernel

/-- FRAME mode returns the frame's own mask, tile 0 in bit 0 of byte 0 (R179). -/
theorem test_fetch_mask_frame :
    ((answer (.rl .r0) (after (.fetchMaskFrame (.rl .r0)) (asks (.rl .r0) 22 [0, 0, 0, 0, 0, 0] pressure))).map
      (fun a => (a.1, a.2.take 2, a.2.length))) = some (.ok, [3, 0], 80) := by decide +kernel

/-- SINCE mode takes the tiles last changed above m; chapter 3.12's tile 137 lies in bit 1 of byte 17. -/
theorem test_fetch_mask_since :
    let r : TileRec := { state := .active, quietRun := 0, signature := [], lastChanged := some 212 }
    let s := { pressure with cd := { pressure.cd with tiles := pressure.cd.tiles.map (fun l => l.set 137 r) } }
    let ask := fun (m : Byte) => ((answer (.rl .r0) (after (.fetchMaskSince (.rl .r0)) (asks (.rl .r0) 22 [0, 1, 0, 0, 0, m] s))).map
      (fun a => (a.2.getD 17 0, a.2.all (fun b => b = 0))))
    ask 211 = some (2, false) ∧ ask 212 = some (0, true) := by decide +kernel

/-- Chapter 6.5's blocks: 1,153 and 808 over nine samples, and the bottom right corner's 528. -/
theorem test_rounded_averages : [1153, 808, 528].map (blockMean 9) = [128, 90, 59] := by decide

/-- Chapter 6.5's corner: the window's output sample (1, 2) counts line 1087 twice. -/
theorem test_edge_replication :
    let at' := fun (x y : Nat) => y / 64 * 184320 + y % 64 * 1920 + x
    let mem := [(1917, 1086, 50), (1918, 1086, 52), (1919, 1086, 54), (1917, 1087, 60), (1918, 1087, 62), (1919, 1087, 64)].foldl
      (fun m (p : Nat × Nat × Byte) => writeBytes m (at' p.1 p.2.1) [p.2.2]) []
    let v : ReadOut := { mem := mem, base := 0, cols := 30, rows := 17, attrs := [], stencil := { lines := [], fg := 0, bg := 0 }, badge := false }
    lumaSum v { x0 := 1914, y0 := 1080, w := 24, h := 24, d := 3, badge := false } 1 2 = 528 := by decide +kernel

/-- A FETCH of an 8 × 8 window (cost 2 + 1): the band is 96 bytes, is sent, and ends the FETCH with one band served. -/
def tiny : Window := { x0 := 0, y0 := 0, w := 8, h := 8, d := 1, badge := true }

def fetching : State :=
  let s : State := { small with
    fpc := { small.fpc with slots := small.fpc.slots.set 1 (shown true .s0 0 1 nobody), current := ⟨some 1, none⟩ }
    rl := { small.rl with r0 := { small.rl.r0 with
      binding := some { source := .s0, window := tiny }, mark := some 0, holds := [{ slot := 1, frame := 0, window := tiny }] } }
    attr := { small.attr with entries := small.attr.entries.set .s0 [.privacy] } }
  after (.fetch (.rl .r0)) (asks (.rl .r0) 21 [1, 0, 5] s)

theorem test_fetch_band_sent :
    let t := after .bandBurstComplete (carried fetching)
    let u := after (.transmitRecord (.rl .r0) .whole) t
    fetching.ms.balance.rl.r0 = 3997 ∧ t.rl.r0.bandBuffer.map Band.data = some (List.replicate 64 16 ++ List.replicate 32 128) ∧
    (u.rl.r0.link.lastSent.take 8) = [66, 9, 0, 0, 98, 1, 0, 16] ∧ u.rl.r0.bandBuffer = none ∧ u.rl.r0.fetch = none ∧
    answer (.rl .r0) u = some (.ok, [1]) := by decide +kernel

/-- Notices leave before answers, and a notice record has 13 payload bytes (R90, R184). -/
theorem test_transmit_notice_first :
    let s := asks (.rl .r0) 23 [1] State.reset
    let w := placeNotice .r0 (.lost .s1 41) (after (.subscribe (.rl .r0)) s)
    let t := after (.transmitRecord (.rl .r0) .whole) w
    t.rl.r0.link.lastSent.take 18 = [65, 0, 0, 0, 13, 2, 2, 1, 0, 0, 0, 41, 0, 0, 0, 0, 0, 0] ∧
    (after (.transmitRecord (.rl .r0) .whole) t).rl.r0.link.lastSent.take 7 = [64, 9, 0, 0, 2, 23, 0] := by decide +kernel

/-- The ABORTED answers of a soft reset leave before a MARKER produced after it (R126, R178). -/
theorem test_aborted_leaves_first :
    let s := placeNotice .r0 (.marker 0 { kind := .cue, source := some .s0, frame := none })
      (after (.softReset []) (asks (.rl .r0) 23 [1] State.reset))
    let t := after (.transmitRecord (.rl .r0) .whole) s
    t.rl.r0.link.lastSent.take 7 = [64, 9, 0, 0, 2, 23, 17] ∧
    (after (.transmitRecord (.rl .r0) .whole) t).rl.r0.link.lastSent.take 6 = [65, 0, 0, 0, 13, 3] := by decide +kernel

/-! ### The Memory Scheduler (chapters 7.6 and 7.7) -/

/-- Chapter 7.7's waiting requests and balances. -/
def round : Scheduler :=
  { Scheduler.reset with
    waiting := ⟨⟨some 722, some 722⟩, some 482, ⟨some 182, some 38, some 272, some 182⟩⟩
    balance := ⟨⟨1400, 900⟩, 2100, ⟨3000, 20, 600, 500⟩⟩
    schedule := { Scheduler.reset.schedule with priority := some .r2 }, ingestPtr := .s0, roundRobin := .r1 }

theorem test_grant_round :
    let grant := fun (m : Scheduler) => match grantChoice m with
      | some r => { chargeGrant m r ((m.waiting.get r).getD 0) .detector with dram := .idle }
      | none => m
    let m := grant (grant (grant round))
    let late := fun (m : Scheduler) => { m with waiting := m.waiting.set .det (some 482) }
    let n := grant (grant (late (grant m)))
    m.balance = ⟨⟨678, 178⟩, 1618, ⟨3000, 20, 600, 500⟩⟩ ∧ n.balance = ⟨⟨678, 178⟩, 1136, ⟨3000, 20, 328, 318⟩⟩ ∧
    n.roundRobin = .r0 := by decide +kernel

/-- Chapter 7.6: refill 1 turns 56 into 356 under an allowance of 300. -/
theorem test_refill :
    (refill { Scheduler.reset with
      schedule := { allowance := ⟨⟨1000, 1000⟩, 1500, ⟨2000, 2000, 300, 2000⟩⟩, priority := none }
      balance := ⟨⟨2000, 2000⟩, 3000, ⟨4000, 4000, 56, 4000⟩⟩ }).balance.rl = ⟨4000, 4000, 356, 4000⟩ := by decide

/-- A microsecond has 64 units (R129): after a burst's last 40, 24 units of the next one are carried in it. -/
theorem test_units_of_a_microsecond :
    let burst := fun (n : Nat) => Dram.burst { job := .ingest .s0 0 [], cost := 64, remaining := n, live := false }
    let t := after .ingestBurstComplete { State.reset with ms := { State.reset.ms with dram := burst 40 } }
    let u := { t with ms := { t.ms with dram := burst 25 } }
    t.ms.dram = .idle ∧ t.ms.room = 24 ∧ mayComplete u.ms = false ∧ (tick u).ms.dram = burst 1 ∧ (tick u).ms.room = 64 := by
  decide +kernel

theorem test_period_event_begins_refresh :
    let t := after .periodEvent (atTime 1000 State.reset)
    t.ms.dram = .refresh 500 ∧ t.tcu.nextPeriod = 2000 ∧
    (after .refreshComplete (carried t)).ms.dram = .idle ∧ (after .periodEvent (atTime 999 State.reset)).ms.dram = .idle := by
  decide +kernel

/-! ### Timebase, cues, chapters and markers (chapters 8 and 9) -/

/-- Chapter 8.6's stalled camera at its third expiry, with RL1 bound to source 0. -/
def stalling : State :=
  let s : State := atTime 50100020 State.reset
  { s with
    fpc := { s.fpc with slots := [shown true .s0 900 0 nobody], current := ⟨some 0, none⟩ }
    rl := { s.rl with r1 := { s.rl.r1 with binding := some { source := .s0, window := half }, subs := 1 } }
    tcu := { s.tcu with cadence := { s.tcu.cadence with
      s0 := { interval := 3334, stallLimit := 3, timer := some 50100020, repeats := 2, stalled := false } } }
    clr := { s.clr with generators := [.stalled .s0, .off, .off, .off, .off, .off] } }

theorem test_cadence_expiry_stalls :
    let t := after (.cadenceExpiry .s0) stalling
    t.tcu.cadence.s0 = { interval := 3334, stallLimit := 3, timer := some 50133360, repeats := 3, stalled := true } ∧
    t.rl.r1.notices = [.repeated .s0 900 3, .marker 0 { kind := .stalled, source := some .s0, frame := some 900 }] := by
  decide +kernel

/-- Chapter 8.5: the press at 20,000,000 is captured and holds off the bounce at 20,041,000. -/
def cueReady : State := atTime 20000000 (after (.setCue [1, 0, 1, 150, 3]) State.reset)

theorem test_cue_edge_and_bounce :
    let t := after (.cueEdge .rising) cueReady
    t.tcu.cues = [{ stamp := 20000000, target := .s1, waited := 0 }] ∧ t.tcu.spacingHold = some 20150000 ∧
    (after (.cueEdge .rising) (atTime 20041000 t)).tcu.cues.length = 1 ∧
    (after (.cueEdge .falling) cueReady).tcu.cues = [] ∧
    (after .spacingHoldEnd (atTime 20150000 t)).tcu.spacingHold = none := by decide +kernel

theorem test_cue_age_expiry :
    let t := after .cueAgeExpiry (atTime (20000000 + 1073741824) (after (.cueEdge .rising) cueReady))
    t.tcu.cues = [] ∧ t.mlu.counters.s1.cueMisses = 1 := by decide +kernel

/-- Chapter 9.9: the decisions of steps 1, 2 and 3. -/
theorem test_chapter_decisions :
    let u := fun (n : FrameNo) => ({ enabled := true, gap := 300, last := some n } : ChapterUnit)
    let none' : FrameFlags := { first := false, cue := false, chapter := false, attr := false }
    chapterDecision (u 1500) .scene none' 1620 = none ∧ chapterDecision (u 1500) .scene { none' with cue := true } 1700 = some .cue ∧
    chapterDecision (u 1700) .scene none' 2050 = some .scene := by decide

/-- Chapter 9.9: a pulse of 20 µs on M0 ends at its end stamp. -/
theorem test_marker_pulse :
    let t := after (.markerPulseEnd .m0) (atTime 20 { State.reset with clr := { State.reset.clr with
      m0 := { enabled := true, width := 20, high := some 20 } } })
    t.clr.m0.high = none := by decide +kernel

/-! ### Links and records (chapter 10) -/

/-- The chapter 10 sequence: the fourth bad record in a row resets RL1 and sets LANE3. -/
theorem test_fourth_bad_record_resets_lane :
    let s := State.reset.modLink (.rl .r1) (fun k => { k with up := true, badRun := 3, errors := 4 })
    let t := after (.recordReceived (.rl .r1) [21, 42, 0]) s
    t.rl.r1.link.up = false ∧ t.rl.r1.link.errors = 5 ∧ t.mlu.cause = 65 := by decide +kernel

theorem test_record_received_is_queued :
    let s := after (.linkTrainingComplete (.rl .r1)) State.reset
    (after (.recordReceived (.rl .r1) (sealRecord 20 41 [3])) s).rl.r1.link.queue = [{ kind := 20, tag := 41, payload := [3] }] := by
  decide +kernel

/-- The CRC of "123456789" under x^16 + x^12 + x^5 + 1 from 65,535 is 29B1 hex (R173's polynomial and start value). -/
theorem test_crc_check_value : crc16 [49, 50, 51, 52, 53, 54, 55, 56, 57] = 0x29B1 := by decide +kernel

theorem test_malformed_request :
    answer (.il .s0) (after (.malformedRequest (.il .s0)) (asks (.il .s0) 99 [] State.reset)) = some (.badArg, []) ∧
    answer (.il .s0) (after (.fetch (.il .s0)) (asks (.il .s0) 21 [0, 0, 1] State.reset)) = some (.wrongLane, []) := by
  decide +kernel

theorem test_link_loss_releases_holds :
    let t := after (.linkLoss (.rl .r2)) (pressure.modLink (.rl .r2) (fun k => { k with up := true }))
    t.fpc.slots[4]? = some .free ∧ t.fpc.slots[5]? = some (shown true .s0 118 0 nobody) ∧ t.mlu.cause = 129 := by decide +kernel

/-! ### Management commands and resets (chapter 11) -/

theorem test_set_plan :
    let t := after (.setPlan [8, 1, 30, 17, 4, 1, 30, 17, 5]) State.reset
    code t = some .ok ∧ t.fpc.plan = some plan8 ∧ code (after (.setPlan [8, 1, 30, 17, 4, 1, 30, 17, 5]) pressure) = some .busy ∧
    code (after (.setPlan [5, 1, 30, 17, 4, 0, 0, 0, 0]) State.reset) = some .badArg := by decide +kernel

theorem test_settings_are_clamped :
    (after (.setDetect [0, 255, 255, 255, 255, 0, 200]) State.reset).cd.settings.s0 =
      { tHi := 4080, tLo := 4080, quiet := 1, percent := 100 } ∧
    (after (.setLaneLimits [1, 2, 3, 4, 5, 6, 40]) State.reset).fpc.poolLow = 32 ∧
    (after (.setCadence [1, 13, 6, 0]) State.reset).tcu.cadence.s1 =
      { interval := 3334, stallLimit := 1, timer := some 33340, repeats := 0, stalled := false } ∧
    (after (.setChapters [1, 1, 1, 44]) State.reset).clr.chapters.s1 = { enabled := true, gap := 300, last := none } := by
  decide +kernel

/-- A schedule of sum 12,001 is refused, one of 12,000 becomes the pending one (R139). -/
theorem test_set_schedule :
    let ask := fun (b : Byte) => after (.setSchedule [3, 232, 3, 232, 5, 220, 7, 208, 7, 208, 7, 208, 9, b, 2]) State.reset
    code (ask 197) = some .badArg ∧ code (ask 196) = some .ok ∧
    (ask 196).ms.pendingSchedule.map Schedule.priority = some (some .r2) := by decide +kernel

theorem test_set_route_refuses_code_six :
    code (after (.setRoute [6, 0, 255, 0, 255, 0, 255, 0, 255, 0, 255, 0, 0, 0, 0, 0, 0]) State.reset) = some .badArg ∧
    (after (.setRoute [5, 9, 255, 0, 255, 0, 255, 0, 255, 0, 4, 1, 0, 1, 0, 0, 7]) State.reset).clr.generators =
      [.poolLow, .off, .off, .off, .off, .evict .s1] := by decide +kernel

/-- Chapter 4.7: two tiles made PRIVACY are marked and not reseeded. -/
theorem test_attr_write :
    let s := { pressure with cd := { pressure.cd with tiles := pressure.cd.tiles.map (fun l => l.set 61
      { state := .quiet, quietRun := 0, signature := [], lastChanged := none }) } }
    let t := after (.attrWrite [0, 0, 61, 0, 2, 1]) s
    code t = some .ok ∧ data t = [0, 2] ∧ t.cd.marks.s0 = BitVec.twoPow 640 61 ||| BitVec.twoPow 640 62 ∧
    (t.cd.tiles.s0[61]?).map TileRec.state = some .quiet ∧
    data (after (.attrRead [0, 0, 60, 0, 3]) t) = [0, 3, 0, 1, 1] := by decide +kernel

/-- A run of lines from 62 is cut at line 63 (R80), bit 0 of the first byte being position 0 (R190). -/
theorem test_badge_write :
    let t := after (.badgeWrite ([62, 3, 200, 30] ++ List.replicate 24 1)) State.reset
    data t = [2] ∧ t.attr.stencil.lines.getD 63 0 = 0x0101010101010101 ∧ t.attr.stencil.fg = 200 := by decide +kernel

theorem test_read_status :
    (data (after (.readStatus []) pressure)).take 21 =
      [2, 8, 0, 1, 0, 0, 0, 118, 1, 0, 0, 0, 43, 0, 5, 1, 0, 0, 0, 40, 1] := by decide +kernel

theorem test_read_counters_clears :
    let s := { State.reset with tcu := { State.reset.tcu with cueOverruns := 258 } }
    (data (after (.readCounters [0]) s)).drop 52 = [1, 2, 0, 0, 0, 0] ∧ (after (.readCounters [1]) s).tcu.cueOverruns = 0 := by
  decide +kernel

/-- Chapter 9.9: a chapter record's 22 bytes, and a marker entry's 13. -/
theorem test_pop_chapters_and_read_markers :
    let e : ChapterRec := { seq := 4012, source := .s1, frame := 2360, pts := 1, arrival := 2, changed := 3, active := 4, reason := .scene }
    let s : State := { State.reset with clr := { State.reset.clr with
      log := [e], markers := [{ channel := 0, event := { kind := .chapter, source := some .s1, frame := some 2360 }, overrun := false }] } }
    data (after (.popChapters [16]) s) = [1, 0, 15, 172, 1, 2, 0, 0, 9, 56, 0, 0, 0, 0, 0, 1, 0, 0, 0, 2, 0, 3, 0, 4] ∧
    data (after (.readMarkers [16]) s) = [1, 0, 3, 2, 1, 0, 0, 9, 56, 0, 0, 0, 0, 0, 1] := by decide +kernel

theorem test_reset_cause :
    let t := after (.softReset []) pressure
    data (after (.readResetCause []) t) = [0, 5] ∧ data (after (.clearResetCause [0, 4]) t) = [0, 1] := by decide +kernel

theorem test_soft_reset_aborts :
    let t := after (.softReset []) (asks (.rl .r0) 19 [0, 0, 0, 0, 0] pressure)
    answer (.rl .r0) t = some (.aborted, []) ∧ t.fpc.slots = List.replicate 8 .free ∧ t.fpc.nextFrame = ⟨0, 0⟩ := by decide +kernel

theorem test_lane_reset :
    code (after (.laneReset [6]) State.reset) = some .badArg ∧
    (after (.laneReset [0]) filled).fpc.slots[6]? = some .free ∧ (after (.laneReset [0]) filled).mlu.cause = 9 := by decide +kernel

theorem test_unknown_command : code (after (.unknownCommand 9 [1]) State.reset) = some .badArg := by decide +kernel

theorem test_frame_cut_off :
    let t := after (.managementFrameCutOff (.whole [32])) (after (.readStatus []) State.reset)
    t.mlu.staging = [] ∧ t.mlu.frame = .idle := by decide +kernel

/-- A frame's bytes (R187, R188): two of 0, the result code, the result, 0 beyond its end; it closes when CSN rises. -/
theorem test_frame_is_clocked_out :
    let byte := fun (s : State) => after (.managementFrameCutOff (.byte 255)) s
    let t := after (.readResetCause []) State.reset
    let u := byte (byte (byte (byte (byte (byte t)))))
    let v := after (.managementFrameCutOff .rise) u
    (byte t).mlu.frame = .executed ∧ (byte (byte t)).mlu.frame = .result ∧ u.mlu.sent = [0, 0, 0, 0, 1, 0] ∧ sdoDriven u = true ∧
    v.mlu.frame = .idle ∧ v.mlu.result = none ∧ sdoDriven v = false := by decide +kernel

/-- A frame cut off after one byte, by its edges; and one whose CSN fell before the release of RSTN is not taken (R187). -/
theorem test_frame_edges :
    let fall := fun (s : State) => after (.managementFrameCutOff .fall) s
    let byte := fun (s : State) => after (.managementFrameCutOff (.byte 32)) s
    let t := byte (fall State.reset)
    let u := byte (after .boardReset (fall (after .rstnAsserted State.reset)))
    t.mlu.frame = .receiving ∧ t.mlu.staging = [32] ∧ (after (.managementFrameCutOff .rise) t).mlu = State.reset.mlu ∧
    u.mlu.frame = .idle ∧ u.mlu.staging = [] := by decide +kernel

/-- A command clocked in byte by byte is executed when it is complete (R187): CLEAR_RESET_CAUSE of bit 0. -/
theorem test_frame_byte_by_byte :
    let t := [37, 2, 0, 1].foldl (fun s (b : Byte) => after (.managementFrameCutOff (.byte b)) s)
      (after (.managementFrameCutOff .fall) State.reset)
    t.mlu.frame = .executed ∧ code t = some .ok ∧ data t = [0, 0] ∧ t.mlu.cause = 0 ∧ t.mlu.staging = [37, 2, 0, 1] := by
  decide +kernel

/-- With CSN low at RSTN's release no byte is taken until CSN has risen and fallen (R187). -/
theorem test_frame_waits_for_csn :
    let clock := fun (s : State) => [48, 0].foldl (fun s (b : Byte) => after (.managementFrameCutOff (.byte b)) s) s
    let s := after .boardReset (after (.managementFrameCutOff .fall) (after .rstnAsserted State.reset))
    let again := after (.managementFrameCutOff .fall) (after (.managementFrameCutOff .rise) s)
    (clock s).mlu.cause = 3 ∧ (clock (after (.managementFrameCutOff .fall) s)).mlu.cause = 3 ∧ (clock again).mlu.cause = 7 := by
  decide +kernel

theorem test_board_reset :
    let low := after .rstnAsserted pressure
    low.rstnLow = true ∧ (after (.readStatus []) low).mlu.result = none ∧ (after .boardReset low).mlu.cause = 3 ∧
    (after .boardReset low).fpc.plan = none ∧ (after .powerOnReset low).mlu.cause = 1 := by decide +kernel

/-! ### Witnesses: states and operands that meet the hypotheses of the statements -/

/-- A command completes from a state. -/
def completes (c : Instr) (s : State) : Prop := ∃ t, exec c s = .next t

/-- An outcome is a next state. -/
def isNext : Host.Outcome State Fault Refusal → Bool
  | .next _ => true
  | _ => false

theorem completes_of (c : Instr) (s : State) (h : isNext (exec c s) = true) : completes c s := by
  unfold completes
  cases ho : exec c s with
  | next t => exact ⟨t, rfl⟩
  | fault r => rw [ho] at h; cases h
  | refused r => rw [ho] at h; cases h

theorem ready_asks (s : State) (lane : Lane) (kind : Byte) (payload : List Byte) (h : s.rstnLow = false)
    (hb : laneBusy s lane = false) :
    Ready (asks lane kind payload s) lane { kind := kind, tag := 9, payload := payload } [] := by
  refine ⟨?_, ?_, ?_⟩
  · cases lane <;> exact h
  · cases lane with
    | il x => cases x <;> exact hb
    | rl l => cases l <;> exact hb
  · cases lane with
    | il x => cases x <;> rfl
    | rl l => cases l <;> rfl

/-- A check over the listed slots that gives R6's comparability. -/
theorem comparable_of (p : Slot → Bool) (slots : List Slot) (b : FrameNo)
    (h : ∀ c, c ∈ slots → ((slotFrame c).all (fun n => decide ((n - b).toNat < 2147483648))) = true) : Comparable p slots := by
  refine ⟨b, fun c n hc _ hn => ?_⟩
  have := h c hc
  rw [hn] at this
  exact of_decide_eq_true this

theorem witness_StepTakesTheFrontCommand :
    ({ State.reset with pending := [.periodEvent, .refreshComplete] } : State).pending = .periodEvent :: [.refreshComplete] ∧
    (after .rstnAsserted State.reset).pending = [] ∧ (after .rstnAsserted State.reset).rstnLow = true ∧
    (atTime 1000 State.reset).pending = [] ∧ dueEvent (atTime 1000 State.reset) = some .periodEvent ∧
    State.reset.pending = [] ∧ State.reset.rstnLow = false ∧ dueEvent State.reset = none := by decide +kernel

theorem witness_QueueTimeAndMemoryKeepers :
    completes .powerOnReset pressure ∧ completes .periodEvent State.reset ∧ Instr.periodEvent ≠ .ingestBurstComplete :=
  ⟨⟨_, rfl⟩, ⟨_, rfl⟩, by decide⟩

theorem witness_SettingsChangeByTheirOwners :
    completes (.setCue [1, 0, 1, 150, 3]) State.reset ∧ isStartUp (.setCue [1, 0, 1, 150, 3]) = false := ⟨⟨_, rfl⟩, rfl⟩

/-- An ingest burst that ends at the last byte of the DRAM. -/
def lastByte : State :=
  { State.reset with ms := { State.reset.ms with
    dram := .burst { job := .ingest .s0 134217727 [7], cost := 26, remaining := 63, live := false } } }

theorem witness_EveryCommandCompletes :
    (∀ b x a bytes, lastByte.ms.dram = .burst b → b.job = .ingest x a bytes → a + bytes.length ≤ 134217728) ∧
    (∀ b (k : AnalysisCtx), lastByte.ms.dram = .burst b → b.job = .detector → lastByte.cd.ctx = some k →
      lastByte.rowPlace k.slot k.cols k.nextRow + 64 * k.cols * 64 ≤ 134217728) ∧
    (∀ b l (p : BandInProgress) x, lastByte.ms.dram = .burst b → b.job = .band l → lastByte.band = some p →
      slotSource (lastByte.slot p.slot) = some x →
      lastByte.rowPlace p.slot (lastByte.cols x) 0 + lastByte.rows x * (lastByte.cols x * 6144) ≤ 134217728) := by
  refine ⟨?_, ?_, ?_⟩
  · intro b x a bytes hb hj
    cases hb; cases hj; decide
  · intro b k hb hj
    cases hb; cases hj
  · intro b l p x hb hj
    cases hb; cases hj

theorem witness_StartUpAndRstn :
    (after .rstnAsserted pressure).rstnLow = true ∧ isStartUp (.readStatus []) = false ∧ Instr.readStatus [] ≠ .rstnAsserted ∧
    Instr.readStatus [] ≠ .managementFrameCutOff .fall ∧ Instr.readStatus [] ≠ .managementFrameCutOff .rise :=
  ⟨rfl, rfl, by decide, by decide, by decide⟩

theorem witness_SoftResetEffects : pressure.rstnLow = false := rfl

/-- An open of source 0 that nothing can serve waits, and behind it one of source 1 that an eviction serves. -/
def waiting : State := after (.openFrame (.il .s0)) (asks (.il .s0) 1 [0, 0, 0, 0, 0, 4] sealed)

def entry0 : WaitEntry := { source := .s0, pts := 4, deadline := 8125220 }
def entry1 : WaitEntry := { source := .s1, pts := 5, deadline := 8125220 }

def waitingTwo : State := { waiting with fpc := { waiting.fpc with
  waitList := [entry0, entry1], slots := waiting.fpc.slots.set 3 (shown false .s1 43 0 owedR0) } }

theorem witness_WaitListServiceOrder :
    (∀ e, e ∈ waiting.fpc.waitList → openChoice e.source waiting = none) ∧
    waitingTwo.fpc.waitList = [entry0] ++ entry1 :: [] ∧ (∀ d, d ∈ [entry0] → openChoice d.source waitingTwo = none) ∧
    openChoice entry1.source waitingTwo = some (.evict 1) ∧ entry0 ∈ (serveWaitList waitingTwo).fpc.waitList := by
  decide +kernel

/-- RL2 has just released slot 4, which nothing else needs; slot 0, just released too, is still owed to RL0; slot 1 was a candidate
before; slot 3 is CURRENT. -/
theorem witness_FreeCheckAndSettling :
    let s : State := { pressure with fpc := { pressure.fpc with
      slots := (pressure.fpc.slots.set 4 (shown false .s0 117 0 nobody)).set 0 (shown false .s1 40 0 owedR0) } }
    s.fpc.slots[4]? = some (shown false .s0 117 0 nobody) ∧ (∀ l, nobody.get l ≠ true) ∧
    s.fpc.slots[0]? = some (shown false .s1 40 0 owedR0) ∧ owedR0.get .r0 = true ∧ pressure.fpc.slots[0]? = some (shown false .s1 40 1 nobody) ∧
    s.fpc.slots[1]? = some (shown false .s1 41 0 owedR0) ∧ pressure.fpc.slots[1]? = s.fpc.slots[1]? ∧
    s.fpc.slots[3]? = some (.analysed true (picture .s1 43) patch 0 owedR0) ∧
    pressure.fpc.slots.length = s.fpc.slots.length ∧ s.fpc.waitList = [] ∧ slotHolds (pressure.slot 4) ≠ slotHolds (s.slot 4) := by
  refine ⟨rfl, fun l => ?_, by decide +kernel⟩
  cases l <;> decide

theorem witness_OpenServedByR20 :
    openChoice .s0 pressure = some (.fromFree 6) ∧ openChoice .s1 waitingTwo = some (.evict 1) ∧
    openChoice .s0 waiting = none ∧
    Comparable (fun c => match c with
      | .analysed false f _ 0 owed => decide (f.source = .s1) && (owed.r0 || owed.r1 || owed.r2 || owed.r3)
      | _ => false) waitingTwo.fpc.slots :=
  ⟨by decide +kernel, by decide +kernel, by decide +kernel, comparable_of _ _ 40 (by decide +kernel)⟩

theorem witness_OpenServiceEffects :
    ((asks (.il .s0) 1 [0, 0, 0, 0, 0, 2] pressure).il.get .s0).link.queue =
      { kind := 1, tag := 9, payload := [0, 0, 0, 0, 0, 2] } :: [] ∧
    (asks (.il .s0) 1 [0, 0, 0, 0, 0, 2] pressure).fpc.slots[6]? = some .free ∧
    (asks (.il .s0) 1 [0, 0, 0, 0, 0, 2] pressure).fpc.slots[1]? = some (shown false .s1 41 0 owedR0) := by decide +kernel

theorem witness_GoodRecordsReadBack :
    (List.replicate 196609 (0 : Byte)).length ≤ 196609 ∧ (List.replicate 6 (0 : Byte)).length < 7 :=
  ⟨Nat.le_of_eq List.length_replicate, by decide⟩

theorem witness_LaneLinkCommands :
    let good := sealRecord 20 41 [3]
    let r : Request := { kind := 20, tag := 41, payload := [3] }
    let s := fun (n bad : Nat) => State.reset.modLink (.rl .r1) (fun k => { k with
      up := true, queue := List.replicate n r, badRun := bad })
    pressure.rstnLow = false ∧ ((asks (.il .s1) 3 [] pressure).link (.il .s1)).up = true ∧
    (pressure.link (.rl .r3)).up = false ∧ 5 < (6 : Byte).toNat ∧
    (State.reset.link (.rl .r1)).up = false ∧ goodRecord good = some r ∧ goodRecord [1, 2, 3] = none ∧
    ((s 3 2).link (.rl .r1)).up = true ∧ ((s 3 2).link (.rl .r1)).queue.length < 4 ∧ 4 ≤ ((s 4 3).link (.rl .r1)).queue.length ∧
    ((s 3 2).link (.rl .r1)).badRun < 3 ∧ 3 ≤ ((s 4 3).link (.rl .r1)).badRun ∧
    requestKind { kind := 2, tag := 9, payload := [] } = none ∧ (List.replicate 6 (0 : Byte)).length = 6 ∧
    (List.replicate 11 (0 : Byte)).length = 11 ∧ (List.replicate 4 (0 : Byte)).length = 4 := by decide +kernel

theorem witness_LaneLinkCommands_ready (lane : Lane) (kind : Byte) (payload : List Byte) :
    Ready (asks lane kind payload State.reset) lane { kind := kind, tag := 9, payload := payload } [] := by
  refine ready_asks _ _ _ _ rfl ?_
  cases lane with
  | il x => cases x <;> rfl
  | rl l => cases l <;> rfl

/-- The management result of a refused command, and a plan whose slots hold 3,133,440 bytes. -/
theorem witness_RecordLayouts :
    (after (.setPlan []) State.reset).mlu.result = some { code := .badArg, data := [] } ∧ 1 < 5 ∧
    pressure.fpc.plan = some plan8 ∧ (plan8.source.get .s0).enabled = true ∧ slotSize plan8 = 3133440 := by decide +kernel

/-- Each arm of the OPEN_FRAME chain: no plan, a disabled source, an open frame, a slot found, no slot under a limit of 0 and above. -/
theorem witness_OpenFrameMeaning :
    let p : List Byte := [0, 0, 0, 0, 0, 4]
    let r : Request := { kind := 1, tag := 9, payload := p }
    p.length = 6 ∧ Ready (asks (.il .s0) 1 p State.reset) (.il .s0) r [] ∧ Ready (asks (.il .s1) 1 p small) (.il .s1) r [] ∧
    Ready (asks (.il .s0) 1 p small) (.il .s0) r [] ∧ Ready (asks (.il .s0) 1 p pressure) (.il .s0) r [] ∧
    Ready (asks (.il .s0) 1 p sealed) (.il .s0) r [] ∧ openChoice .s0 (asks (.il .s0) 1 p sealed) = none := by
  refine ⟨rfl, ready_asks _ _ _ _ rfl rfl, ready_asks _ _ _ _ rfl rfl, ready_asks _ _ _ _ rfl rfl, ready_asks _ _ _ _ rfl rfl,
    ready_asks _ _ _ _ (by decide +kernel) (by decide +kernel), by decide +kernel⟩

theorem witness_PutRowsMeaning :
    Ready (asks (.il .s0) 2 (0 :: row) small) (.il .s0) { kind := 2, tag := 9, payload := 0 :: row } [] ∧
    (small.il.get .s0).openFrame = some 2 ∧ small.rows .s0 = 1 ∧ row.length = small.cols .s0 * 6144 ∧ rowsWritten small 2 = 0 :=
  ⟨ready_asks _ _ _ _ rfl rfl, rfl, rfl, by decide +kernel, rfl⟩

/-- A row of two bytes under way to the last two places of the DRAM. -/
def writing : State :=
  let s : State := asks (.il .s0) 2 [0, 7, 8] small
  { s with ms := { s.ms with dram := .burst { job := .ingest .s0 134217726 [7, 8], cost := 26, remaining := 63, live := true } } }

theorem witness_IngestBurstMeaning :
    let b : Burst := { job := .ingest .s0 134217726 [7, 8], cost := 26, remaining := 63, live := true }
    writing.rstnLow = false ∧ writing.ms.dram = .burst b ∧ b.job = .ingest .s0 134217726 [7, 8] ∧ b.remaining ≤ writing.ms.room ∧
    134217726 + ([7, 8] : List Byte).length ≤ 134217728 ∧ b.live = true ∧ (writing.il.get .s0).openFrame = some 2 ∧
    writing.fpc.slots[2]? = some (.filling .s0 5 0) ∧
    (writing.il.get .s0).link.queue = { kind := 2, tag := 9, payload := [0, 7, 8] } :: [] ∧
    (∃ c, lastByte.ms.dram = .burst c ∧ c.job = .ingest .s0 134217727 [7] ∧ c.remaining ≤ lastByte.ms.room ∧ c.live = false) :=
  ⟨rfl, rfl, rfl, by decide, by decide, rfl, rfl, rfl, rfl, _, rfl, rfl, by decide, rfl⟩

theorem witness_SealAndAbandonMeaning :
    (∀ kind, Ready (asks (.il .s0) kind [] State.reset) (.il .s0) { kind := kind, tag := 9, payload := [] } []) ∧
    State.reset.fpc.plan = none ∧
    (∀ kind, Ready (asks (.il .s0) kind [] pressure) (.il .s0) { kind := kind, tag := 9, payload := [] } []) ∧
    pressure.fpc.plan ≠ none ∧ (pressure.il.get .s0).openFrame = none ∧
    (∀ kind, Ready (asks (.il .s0) kind [] small) (.il .s0) { kind := kind, tag := 9, payload := [] } []) ∧
    small.fpc.plan ≠ none ∧ (small.il.get .s0).openFrame = some 2 ∧ small.fpc.slots[2]? = some (.filling .s0 5 0) ∧
    0 < small.rows .s0 ∧ (filled.il.get .s0).openFrame = some 6 ∧ filled.fpc.slots[6]? = some (.filling .s0 2 17) ∧
    filled.rows .s0 ≤ 17 ∧ Ready (asks (.il .s0) 3 [] filled) (.il .s0) { kind := 3, tag := 9, payload := [] } [] :=
  ⟨fun _ => ready_asks _ _ _ _ rfl rfl, rfl, fun _ => ready_asks _ _ _ _ rfl rfl, by decide, rfl,
    fun _ => ready_asks _ _ _ _ rfl rfl, by decide, rfl, rfl, by decide, by decide +kernel, by decide +kernel, by decide +kernel,
    ready_asks _ _ _ _ (by decide +kernel) (by decide +kernel)⟩

/-- RL1 waits for a frame above its mark of 43, until 40,000. -/
def claiming : State := after (.claimNext (.rl .r1)) (asks (.rl .r1) 19 [0, 0, 0, 0, 0] pressure)

/-- The arms of BIND: no plan, no such source, an unfit window, one that is too costly, a first binding, the same source, a lane that
holds, a change of source. -/
theorem witness_BindMeaning :
    let p : List Byte := [0, 0, 0, 0, 0, 7, 128, 4, 64, 2, 0]
    Ready (asks (.rl .r3) 17 p State.reset) (.rl .r3) { kind := 17, tag := 9, payload := p } [] ∧
    (∀ l, Ready (asks (.rl l) 17 p pressure) (.rl l) { kind := 17, tag := 9, payload := p } []) ∧
    pressure.fpc.plan = some plan8 ∧ source 2 = none ∧ source 0 = some .s0 ∧ (plan8.source.get .s0).enabled = true ∧
    (two 7 128 % (8 * 2) = 0 ∧ 8 * 2 ≤ two 7 128 ∧ two 7 128 ≤ 2048 ∧ two 4 64 % (8 * 2) = 0 ∧ two 4 64 ≤ 1280) ∧
    2 + (two 7 128 * 8 * 2 * 3 / 2 + 255) / 256 ≤ 2 * pressure.ms.schedule.allowance.get (.rl .r3) ∧
    pressure.ms.pendingSchedule = none ∧ (pressure.rl.get .r3).binding = none ∧
    (pressure.rl.get .r2).binding = some { source := .s0, window := half } ∧
    (pressure.rl.get .r0).binding = some { source := .s1, window := half } ∧ (pressure.rl.get .r0).holds ≠ [] ∧
    (pressure.rl.get .r1).binding = some { source := .s1, window := half } ∧ (pressure.rl.get .r1).holds = [] := by
  refine ⟨ready_asks _ _ _ _ rfl rfl, fun l => ready_asks _ _ _ _ rfl ?_, by decide +kernel⟩
  cases l <;> rfl

theorem witness_UnbindAndSubscribeMeaning :
    (∀ kind p, Ready (asks (.rl .r0) kind p State.reset) (.rl .r0) { kind := kind, tag := 9, payload := p } []) ∧
    (∀ l, Ready (asks (.rl l) 18 [] pressure) (.rl l) { kind := 18, tag := 9, payload := [] } []) ∧
    State.reset.fpc.plan = none ∧ pressure.fpc.plan ≠ none ∧ (pressure.rl.get .r3).binding = none ∧
    (pressure.rl.get .r0).binding ≠ none ∧ (pressure.rl.get .r0).holds ≠ [] ∧ (pressure.rl.get .r1).binding ≠ none ∧
    (pressure.rl.get .r1).holds = [] := by
  refine ⟨fun _ _ => ready_asks _ _ _ _ rfl rfl, fun l => ready_asks _ _ _ _ rfl ?_, by decide +kernel⟩
  cases l <;> rfl

theorem witness_ClaimEffects :
    let s := asks (.rl .r1) 19 [1, 0, 0, 0, 0] pressure
    s.fpc.slots[3]? = some (.analysed true (picture .s1 43) patch 0 owedR0) ∧ (picture .s1 43).source = .s1 ∧
    (s.rl.get .r1).link.queue = { kind := 19, tag := 9, payload := [1, 0, 0, 0, 0] } :: [] := by decide +kernel

/-- RL0 holds two slots. -/
def holdsTwo : State := rl0Latest

theorem witness_ClaimNextMeaning :
    let r : Request := { kind := 19, tag := 9, payload := [0, 0, 0, 0, 0] }
    Ready (asks (.rl .r0) 19 r.payload State.reset) (.rl .r0) r [] ∧ State.reset.fpc.plan = none ∧
    (∀ l, Ready (asks (.rl l) 19 r.payload pressure) (.rl l) r []) ∧ pressure.fpc.plan ≠ none ∧
    (pressure.rl.get .r3).binding = none ∧ (holdsTwo.rl.get .r0).binding ≠ none ∧ 2 ≤ (holdsTwo.rl.get .r0).holds.length ∧
    Ready (asks (.rl .r0) 19 r.payload holdsTwo) (.rl .r0) r [] ∧ (pressure.rl.get .r0).binding ≠ none ∧
    (pressure.rl.get .r0).holds.length < 2 ∧ Comparable (fun _ => true) pressure.fpc.slots ∧ 2 < (3 : Byte).toNat := by
  refine ⟨ready_asks _ _ _ _ rfl rfl, rfl, fun l => ready_asks _ _ _ _ rfl ?_, by decide, rfl, by decide +kernel, by decide +kernel,
    ready_asks _ _ _ _ (by decide +kernel) (by decide +kernel), by decide, by decide, comparable_of _ _ 40 (by decide +kernel), by decide⟩
  cases l <;> rfl

/-- RL0's mark 40 is below the CURRENT frame 43, RL1's mark 43 is it. -/
theorem witness_ClaimLatestMeaning :
    let r : Request := { kind := 19, tag := 9, payload := [1, 0, 0, 0, 0] }
    Ready (asks (.rl .r0) 19 r.payload State.reset) (.rl .r0) r [] ∧
    (∀ l, Ready (asks (.rl l) 19 r.payload pressure) (.rl l) r []) ∧
    Ready (asks (.rl .r0) 19 r.payload holdsTwo) (.rl .r0) r [] ∧ 2 ≤ (holdsTwo.rl.get .r0).holds.length ∧
    (pressure.rl.get .r3).binding = none ∧ (pressure.rl.get .r0).binding = some { source := .s1, window := half } ∧
    (pressure.rl.get .r0).holds.length < 2 ∧ (pressure.rl.get .r1).holds.length < 2 ∧ State.reset.fpc.current.get .s1 = none ∧
    pressure.fpc.current.get .s1 = some 3 ∧ pressure.fpc.slots[3]? = some (.analysed true (picture .s1 43) patch 0 owedR0) ∧
    (pressure.rl.get .r0).mark = some 40 ∧ ((picture .s1 43).number - 40).toNat < 2147483648 ∧
    (pressure.rl.get .r1).mark = some (picture .s1 43).number := by
  refine ⟨ready_asks _ _ _ _ rfl rfl, fun l => ready_asks _ _ _ _ rfl ?_,
    ready_asks _ _ _ _ (by decide +kernel) (by decide +kernel), by decide +kernel⟩
  cases l <;> rfl

/-- Of the numbers RL0 may name at mark 40: 40 is passed, 44 is not sealed, 42 lies in slot 2, and with slot 2 free it is gone. -/
theorem witness_ClaimNumberMeaning :
    (∀ n, Ready (asks (.rl .r0) 19 [2, 0, 0, 0, n] State.reset) (.rl .r0) { kind := 19, tag := 9, payload := [2, 0, 0, 0, n] } []) ∧
    (∀ n, Ready (asks (.rl .r0) 19 [2, 0, 0, 0, n] pressure) (.rl .r0) { kind := 19, tag := 9, payload := [2, 0, 0, 0, n] } []) ∧
    (pressure.rl.get .r0).mark = some 40 ∧ ((40 : FrameNo) - 40).toNat < 2147483648 ∧
    ¬ ((40 : FrameNo) - 44).toNat < 2147483648 ∧ frameBelow 44 (pressure.fpc.nextFrame.get .s1) = false ∧
    ¬ ((40 : FrameNo) - 42).toNat < 2147483648 ∧ frameBelow 42 (pressure.fpc.nextFrame.get .s1) = true ∧
    pressure.fpc.slots[2]? = some (shown false .s1 42 0 owedR0) ∧
    (∀ j, j < 2 → slotFrame (pressure.slot j) ≠ some 42) ∧
    (∀ c, c ∈ pressure.fpc.slots.set 2 .free → ¬ (slotSource c = some .s1 ∧ slotFrame c = some 42)) :=
  ⟨fun _ => ready_asks _ _ _ _ rfl rfl, fun _ => ready_asks _ _ _ _ rfl rfl, by decide +kernel⟩

theorem witness_ReleaseMeaning :
    (∀ k, Ready (asks (.rl .r0) 20 [k] State.reset) (.rl .r0) { kind := 20, tag := 9, payload := [k] } []) ∧
    (∀ k, Ready (asks (.rl .r0) 20 [k] pressure) (.rl .r0) { kind := 20, tag := 9, payload := [k] } []) ∧
    pressure.fpc.plan ≠ none ∧ (∀ e, e ∈ (pressure.rl.get .r0).holds → e.slot ≠ (1 : Byte).toNat) ∧
    (∃ e, e ∈ (pressure.rl.get .r0).holds ∧ e.slot = (0 : Byte).toNat) ∧
    pressure.fpc.slots[(0 : Byte).toNat]? = some (.analysed false (picture .s1 40) patch 1 nobody) :=
  ⟨fun _ => ready_asks _ _ _ _ rfl rfl, fun _ => ready_asks _ _ _ _ rfl rfl, by decide, by decide,
    ⟨_, List.mem_singleton.mpr rfl, rfl⟩, rfl⟩

theorem witness_FetchMaskMeaning :
    (∀ k m, Ready (asks (.rl .r0) 22 [k, m, 0, 0, 0, 0] State.reset) (.rl .r0)
      { kind := 22, tag := 9, payload := [k, m, 0, 0, 0, 0] } []) ∧
    (∀ k m, Ready (asks (.rl .r0) 22 [k, m, 0, 0, 0, 0] pressure) (.rl .r0)
      { kind := 22, tag := 9, payload := [k, m, 0, 0, 0, 0] } []) ∧
    pressure.fpc.plan ≠ none ∧ (∃ e, e ∈ (pressure.rl.get .r0).holds ∧ e.slot = (0 : Byte).toNat) ∧
    (¬ ∃ e, e ∈ (pressure.rl.get .r0).holds ∧ e.slot = (1 : Byte).toNat) ∧
    pressure.fpc.slots[(0 : Byte).toNat]? = some (.analysed false (picture .s1 40) patch 1 nobody) ∧ 1 < (2 : Byte).toNat ∧
    639 < 640 :=
  ⟨fun _ _ => ready_asks _ _ _ _ rfl rfl, fun _ _ => ready_asks _ _ _ _ rfl rfl, by decide,
    ⟨_, List.mem_singleton.mpr rfl, rfl⟩, by decide, rfl, by decide, by decide⟩

/-- RL0's held window has 68 bands: band 68 is outside, band 67 the last. -/
theorem witness_FetchMeaning :
    (∀ k f c, Ready (asks (.rl .r0) 21 [k, f, c] State.reset) (.rl .r0) { kind := 21, tag := 9, payload := [k, f, c] } []) ∧
    (∀ k f c, Ready (asks (.rl .r0) 21 [k, f, c] pressure) (.rl .r0) { kind := 21, tag := 9, payload := [k, f, c] } []) ∧
    pressure.fpc.plan ≠ none ∧ (∀ e, e ∈ (pressure.rl.get .r0).holds → e.slot ≠ (1 : Byte).toNat) ∧
    (pressure.rl.get .r0).holds = [] ++ { slot := (0 : Byte).toNat, frame := 40, window := half } :: [] ∧
    half.h / half.d / 8 ≤ (68 : Byte).toNat ∧ (67 : Byte).toNat < half.h / half.d / 8 ∧
    (pressure.rl.get .r0).bandBuffer = none :=
  ⟨fun _ _ _ => ready_asks _ _ _ _ rfl rfl, fun _ _ _ => ready_asks _ _ _ _ rfl rfl, by decide, by decide, rfl, by decide,
    by decide, rfl⟩

/-- The band in progress of `fetching`. -/
def tinyBand : BandInProgress :=
  { lane := .r0, tag := 9, slot := 1, index := 0, window := tiny, viewAttrs := [.privacy]
    viewStencil := AttrTable.reset.stencil, sums := List.replicate 96 0 }

theorem witness_BandBurstMeaning :
    ∃ (b : Burst) (p : BandInProgress), fetching.rstnLow = false ∧ fetching.ms.dram = .burst b ∧ b.job = .band .r0 ∧
      b.remaining ≤ fetching.ms.room ∧ b.live = true ∧ fetching.band = some p ∧ p.slot = 1 ∧
      fetching.fpc.slots[1]? = some (shown true .s0 0 1 nobody) ∧ p.sums = List.replicate (12 * (p.window.w / p.window.d)) 0 ∧
      fetching.rowPlace p.slot (fetching.cols .s0) 0 + fetching.rows .s0 * (fetching.cols .s0 * 6144) ≤ 134217728 :=
  ⟨{ job := .band .r0, cost := 3, remaining := 3, live := true },
    tinyBand, by decide +kernel⟩

theorem witness_BandData :
    let v : ReadOut := { mem := [], base := 0, cols := 1, rows := 1, attrs := [.privacy], stencil := AttrTable.reset.stencil, badge := true }
    1 ≤ v.cols ∧ 1 ≤ v.rows ∧ 1 ≤ tiny.d ∧ tiny.w / tiny.d % 2 = 0 := by decide

theorem witness_RoundedAverage :
    let values : List Nat := [120, 124, 130, 126, 128, 131, 129, 133, 132]
    let v : ReadOut := { mem := [], base := 0, cols := 1, rows := 1, attrs := [.privacy], stencil := AttrTable.reset.stencil, badge := true }
    1 ≤ 3 ∧ values.length = 3 * 3 ∧ (∀ x, x ∈ values → x ≤ 255) ∧ (∀ x, x ∈ List.replicate 9 255 → x = 255) ∧ 1 ≤ tiny.d ∧
    (∀ a, a < tiny.d → ∀ b, b < tiny.d → v.attrAt (min (tiny.y0 + tiny.d * 7 + b) (v.height - 1) / 64)
      (min (tiny.x0 + tiny.d * 7 + a) (v.width - 1) / 64) = .privacy) ∧
    (∀ a, a < tiny.d → ∀ b, b < tiny.d → v.attrAt (2 * min (tiny.y0 / 2 + tiny.d * 3 + b) (v.height / 2 - 1) / 64)
      (2 * min (tiny.x0 / 2 + tiny.d * 3 + a) (v.width / 2 - 1) / 64) = .privacy) := by decide +kernel

theorem witness_TransmitterOrder :
    let t := after .bandBurstComplete (carried fetching)
    let n := t.modRl .r0 (fun r => { r with notices := [.lost .s0 3] })
    let a := after (.subscribe (.rl .r1)) (asks (.rl .r1) 23 [1] State.reset)
    t.rstnLow = false ∧ (State.reset.link (.rl .r0)).up = false ∧ (State.reset.link (.rl .r0)).sending = none ∧
    (n.link (.rl .r0)).up = true ∧ (n.link (.rl .r0)).sending = none ∧ (n.rl.get .r0).notices = .lost .s0 3 :: [] ∧
    (n.link (.rl .r0)).ahead = 0 ∧ 0 < ((after (.softReset []) fetching).link (.rl .r0)).ahead ∧
    (a.link (.rl .r1)).up = true ∧ (a.link (.rl .r1)).sending = none ∧
    (a.link (.rl .r1)).outgoing = .answer { tag := 9, kind := 23, code := .ok, body := [] } :: [] ∧ (a.rl.get .r1).notices = [] ∧
    (t.link (.rl .r0)).up = true ∧ (t.link (.rl .r0)).sending = none ∧ (t.rl.get .r0).notices = [] ∧
    (t.link (.rl .r0)).outgoing = .bandData :: [] ∧ (t.rl.get .r0).bandBuffer.isSome = true ∧
    (t.rl.get .r0).fetch.map FetchCtx.nextBand = some 0 ∧ (t.rl.get .r0).fetch.map FetchCtx.lastBand = some 0 ∧
    ((after (.transmitRecord (.rl .r1) .start) a).link (.rl .r1)).sending.isSome = true := by decide +kernel

/-- A 1 × 2 picture whose upper tile is PRIVACY in the view, over two DRAMs that differ in a sample of that tile. -/
def masked : State :=
  { carried fetching with
    fpc := { fetching.fpc with plan := some { slots := 6, source := ⟨{ enabled := true, cols := 1, rows := 2, quota := 3 },
      { enabled := false, cols := 1, rows := 1, quota := 0 }⟩ } } }

theorem witness_PrivateSamplesNeverRead :
    ∃ (p : BandInProgress) (other : List Host.Cell), masked.band = some p ∧ slotSource (masked.slot p.slot) = some .s0 ∧
      1 ≤ masked.cols .s0 ∧ 1 ≤ masked.rows .s0 ∧
      lumaAt masked.mem (masked.rowPlace p.slot (masked.cols .s0) 0) (masked.cols .s0) 5 0 ≠
        lumaAt other (masked.rowPlace p.slot (masked.cols .s0) 0) (masked.cols .s0) 5 0 ∧
      (∀ i j, i < 64 * masked.cols .s0 → j < 64 * masked.rows .s0 →
        p.viewAttrs.getD (j / 64 * masked.cols .s0 + i / 64) .none ≠ .privacy →
        lumaAt masked.mem (masked.rowPlace p.slot (masked.cols .s0) 0) (masked.cols .s0) i j =
          lumaAt other (masked.rowPlace p.slot (masked.cols .s0) 0) (masked.cols .s0) i j) ∧
      (∀ plane i j, i < 32 * masked.cols .s0 → j < 32 * masked.rows .s0 →
        p.viewAttrs.getD (j / 32 * masked.cols .s0 + i / 32) .none ≠ .privacy →
        chromaAt masked.mem (masked.rowPlace p.slot (masked.cols .s0) 0) (masked.cols .s0) plane i j =
          chromaAt other (masked.rowPlace p.slot (masked.cols .s0) 0) (masked.cols .s0) plane i j) ∧
      completes .bandBurstComplete masked := by
  refine ⟨tinyBand, [(12293, 77)], by decide +kernel, by decide +kernel,
    by decide, by decide, by decide +kernel, ?_, ?_, ?_⟩
  · have hc : masked.cols .s0 = 1 := rfl
    have hr : masked.rows .s0 = 2 := rfl
    have hb : masked.rowPlace tinyBand.slot 1 0 = 12288 := by decide
    have hm : masked.mem = [] := by decide +kernel
    rw [hc, hr, hb, hm]
    intro i j hi hj hs
    have : j / 64 ≠ 0 := fun h => hs (by simp [h, Nat.div_eq_of_lt hi, tinyBand])
    have : 12293 ≠ 12288 + j / 64 * Config.tileBytes + j % 64 * 64 + i := by
      simp only [Config.tileBytes]; omega
    simp [lumaAt, readByte, this]
  · have hc : masked.cols .s0 = 1 := rfl
    have hr : masked.rows .s0 = 2 := rfl
    have hb : masked.rowPlace tinyBand.slot 1 0 = 12288 := by decide
    have hm : masked.mem = [] := by decide +kernel
    rw [hc, hr, hb, hm]
    intro plane i j hi hj hs
    have : 12293 ≠ 12288 + j / 32 * (1 * Config.tileBytes) + 64 * (64 * 1) +
        (match plane with | .u => 0 | .v => 32 * (64 * 1 / 2)) + j % 32 * (64 * 1 / 2) + i := by omega
    cases plane <;> simp_all [chromaAt, readByte]
  · exact completes_of _ _ (by decide +kernel)

/-- Chapter 3.12's tile 137 in frame 212: QUIET, measured, its distance 646 above T_hi; and one at the end of its quiet run. -/
def analysis : AnalysisCtx :=
  { slot := 2, source := .s0, number := 212, arrival := 0, cols := 1, rows := 1, settings := DetectSettings.reset, excluded := 2,
    marked := 0, nextRow := 0, changed := 0, active := 0, mask := 0, attrSeen := false }

theorem witness_TileMeasurement :
    let flat : List Byte := List.replicate 16 200
    let text : List Byte := [200, 199, 200, 201, 199, 40, 40, 200, 201, 40, 40, 199, 200, 201, 200, 200]
    let tile := fun (st : TileState) (run : Nat) => ({ state := st, quietRun := run, signature := flat, lastChanged := some 188 } : TileRec)
    text.length = 16 ∧ flat.length = 16 ∧
    (tileStep text 0 analysis (tile .quiet 0)).1 = { state := .active, quietRun := 0, signature := text, lastChanged := some 212 } ∧
    (tileStep flat 0 analysis (tile .active 3)).1 = tile .quiet 0 ∧ (tileStep flat 0 analysis (tile .active 2)).1 = tile .active 3 ∧
    (tileStep text 1 analysis (tile .active 2)).1 = tile .active 2 := by decide +kernel

/-- The small pool's frame under analysis, its first row's burst carried. -/
def analysing : State :=
  carried (after (.sealFrame (.il .s0)) (asks (.il .s0) 3 []
    { small with fpc := { small.fpc with slots := small.fpc.slots.set 2 (.filling .s0 5 1) } }))

theorem witness_DetectorBurstMeaning :
    ∃ (b : Burst) (c : AnalysisCtx), analysing.rstnLow = false ∧ analysing.ms.dram = .burst b ∧ b.job = .detector ∧ b.remaining ≤ analysing.ms.room ∧
      b.live = true ∧ analysing.cd.ctx = some c ∧ (analysing.cd.tiles.get c.source).length = 640 ∧ (c.nextRow + 1) * c.cols ≤ 640 ∧
      analysing.rowPlace c.slot c.cols c.nextRow + 64 * c.cols * 64 ≤ 134217728 ∧ 15 < 16 ∧
      (after (.softReset []) analysing).ms.dram = .burst { b with live := false } ∧ (after (.softReset []) analysing).cd.ctx = none :=
  ⟨{ job := .detector, cost := 18, remaining := 0, live := true },
    { analysis with number := 0, excluded := 0 }, by decide +kernel⟩

theorem witness_AnalysisStart :
    State.reset.cd.queue = [] ∧ analysing.cd.ctx ≠ none ∧
    ∃ s : State, s.cd.ctx = none ∧ s.cd.queue = 6 :: [] ∧ s.fpc.slots[6]? = some (.queued (picture .s0 119)) :=
  ⟨rfl, by decide +kernel, { pressure with
    fpc := { pressure.fpc with slots := pressure.fpc.slots.set 6 (.queued (picture .s0 119)) }
    cd := { pressure.cd with queue := [6] } }, rfl, rfl, rfl⟩

/-- Frame 119 of source 0 completes behind CURRENT frame 118; and the first frame of a source behind none. -/
theorem witness_AnalysisCompletion :
    let s : State := { pressure with
      fpc := { pressure.fpc with slots := pressure.fpc.slots.set 6 (.analysing (picture .s0 119)) } }
    let c : AnalysisCtx := { analysis with slot := 6 }
    s.fpc.slots[c.slot]? = some (.analysing (picture .s0 119)) ∧ (picture .s0 119).source = c.source ∧
    s.fpc.current.get c.source = some 5 ∧ s.fpc.slots[5]? = some (.analysed true (picture .s0 118) patch 0 owedR2) ∧
    analysing.fpc.slots[2]? = some (.analysing { source := .s0, number := 0, pts := 5, arrival := 0 }) ∧
    analysing.fpc.current.get .s0 = none ∧
    claiming.fpc.slots[3]? = some (.analysed true (picture .s1 43) patch 0 owedR0) ∧ (picture .s1 43).source = .s1 ∧
    (claiming.rl.get .r1).binding = some { source := .s1, window := half } ∧ (claiming.rl.get .r1).pendingClaim ≠ none ∧
    (claiming.rl.get .r3).binding = none := by decide +kernel

theorem witness_ChapterDecisionAndRecord :
    (300 ≤ ((1800 : FrameNo) - 1500).toNat ∧ ¬ 300 ≤ ((1799 : FrameNo) - 1500).toNat) ∧ State.reset.clr.log.length < 64 ∧
    64 ≤ (List.replicate 64 (⟨0, .s1, 0, 0, 0, 0, 0, .first⟩ : ChapterRec)).length := by decide +kernel

theorem witness_GrantOrderAndCharge :
    let s : State := { pressure with ms := round }
    s.ms.dram = .idle ∧ s.ms.refreshDue = false ∧ s.ms.waiting.get (.il .s0) = some 722 ∧ 722 ≤ s.ms.balance.get (.il .s0) ∧
    fetching.ms.dram ≠ .idle ∧ (after .periodEvent (atTime 1000 fetching)).ms.refreshDue = true ∧ fetching.ms.refreshDue = false ∧
    Requester.det ≠ .rl .r0 ∧ (∀ l, State.reset.ms.waiting.get (.rl l) = none) := by
  refine ⟨rfl, rfl, rfl, by decide, by decide +kernel, by decide +kernel, by decide +kernel, by decide, fun l => ?_⟩
  cases l <;> rfl

theorem witness_PeriodAndRefresh :
    let t := after .periodEvent (atTime 1000 State.reset)
    State.reset.rstnLow = false ∧ ((atTime 1000 State.reset).tcu.time - State.reset.tcu.nextPeriod).toNat < 2147483648 ∧
    2147483648 ≤ ((atTime 999 State.reset).tcu.time - State.reset.tcu.nextPeriod).toNat ∧
    (carried t).ms.dram = .refresh 0 ∧ 0 ≤ (carried t).ms.room ∧ (carried t).ms.refreshDue = false := by decide +kernel

theorem witness_CadenceExpiryMeaning :
    stalling.rstnLow = false ∧ (State.reset.tcu.cadence.get .s0).timer = none ∧
    (stalling.tcu.cadence.get .s0).timer = some 50100020 ∧ (stalling.tcu.time - 50100020).toNat < 2147483648 ∧
    2147483648 ≤ ((atTime 50100019 stalling).tcu.time - 50100020).toNat ∧ stalling.currentFrame .s0 = some (picture .s0 900) ∧
    ({ stalling with fpc := State.reset.fpc } : State).currentFrame .s0 = none := by decide +kernel

theorem witness_CuesPulsesAndDeadlines :
    let c : CueRec := { stamp := 20000000, target := .s1, waited := 0 }
    let t := after (.cueEdge .rising) cueReady
    let p : PendingOpen := { tag := 9, pts := 4, deadline := 8125220 }
    let q : PendingClaim := { tag := 9, deadline := 40000 }
    (t.rstnLow = false ∧ t.tcu.cues = [] ++ c :: [] ∧
      ((atTime 1093741824 t).tcu.time - (c.stamp + 1073741824)).toNat < 2147483648 ∧
      2147483648 ≤ ((atTime 1093741823 t).tcu.time - (c.stamp + 1073741824)).toNat) ∧
    (waiting.rstnLow = false ∧ (waiting.il.get .s0).pendingOpen = some p ∧ (waiting.il.get .s0).link.queue ≠ [] ∧
      ((atTime 8125220 waiting).tcu.time - p.deadline).toNat < 2147483648 ∧
      2147483648 ≤ ((atTime 8125219 waiting).tcu.time - p.deadline).toNat ∧ (waiting.il.get .s1).pendingOpen = none) ∧
    (claiming.rstnLow = false ∧ (claiming.rl.get .r1).pendingClaim = some q ∧ (claiming.rl.get .r1).link.queue ≠ [] ∧
      ((atTime 40000 claiming).tcu.time - q.deadline).toNat < 2147483648 ∧
      2147483648 ≤ ((atTime 39999 claiming).tcu.time - q.deadline).toNat ∧ (claiming.rl.get .r0).pendingClaim = none) := by
  decide +kernel

/-- A valid plan on an idle pool and on one that is not, and an invalid one. -/
theorem witness_SetPlanMeaning :
    State.reset.rstnLow = false ∧ pressure.rstnLow = false ∧ code (after (.setPlan [6, 1, 1, 1, 3, 0, 0, 0, 0]) State.reset) = some .ok ∧
    code (after (.setPlan [6, 1, 1, 1, 3, 0, 0, 0, 0]) pressure) = some .busy ∧
    code (after (.setPlan [6, 1, 1, 1, 2, 0, 0, 0, 0]) State.reset) = some .badArg := by decide +kernel

theorem witness_SourceSettingsCommands : State.reset.rstnLow = false := rfl

/-- Allowances of 12,000 in all pass every check of `pressure`, 12,001 do not, and code 4 names no lane. -/
theorem witness_PartSettingsCommands :
    let total := fun (b : Byte) => two 3 232 + two 3 232 + two 5 220 + two 7 208 + two 7 208 + two 7 208 + two 9 b
    pressure.rstnLow = false ∧ total 196 = 12000 ∧ total 197 = 12001 ∧
    code (after (.setSchedule [3, 232, 3, 232, 5, 220, 7, 208, 7, 208, 7, 208, 9, 196, 255]) pressure) = some .ok ∧
    code (after (.setSchedule [3, 232, 3, 232, 5, 220, 7, 208, 7, 208, 7, 208, 9, 196, 4]) pressure) = some .badArg := by
  decide +kernel

theorem witness_AttrWriteMeaning :
    State.reset.rstnLow = false ∧ (State.reset.attr.entries.get .s0).length = 640 ∧ (State.reset.cd.tiles.get .s0).length = 640 ∧
    (State.reset.attr.entries.get .s1).length = 640 ∧ (State.reset.cd.tiles.get .s1).length = 640 ∧ source 2 = none ∧
    source 1 = some .s1 := by decide +kernel

theorem witness_BadgeWriteMeaning :
    State.reset.rstnLow = false ∧ State.reset.attr.stencil.lines.length = 64 ∧
    (List.replicate 128 (0 : Byte)).length = 8 * min (17 : Byte).toNat 16 := by decide +kernel

theorem witness_ReadOutCommands : pressure.rstnLow = false ∧ State.reset.fpc.plan = none ∧ pressure.fpc.plan ≠ none ∧
    pressure.fpc.slots[0]? = some (shown false .s1 40 1 nobody) := by decide +kernel

theorem witness_PopChaptersAndReadMarkers : filled.rstnLow = false ∧ filled.clr.markers ≠ [] := by decide +kernel

/-- CSN has fallen, and one byte of a command of two has been clocked. -/
def receiving : State := after (.managementFrameCutOff (.byte 32)) (after (.managementFrameCutOff .fall) State.reset)

theorem witness_FramesAndTheirBytes :
    State.reset.rstnLow = false ∧ ([0, 0] : List Byte).length ≠ 9 ∧ ([0, 0] : List Byte).length ≠ 0 ∧
    (9 : Byte).toNat ∉ [1, 2, 3, 4, 5, 6, 7, 8, 16, 17, 18, 32, 33, 34, 35, 36, 37, 48, 49] ∧
    (∀ code len rest, ([32, 2, 1] : List Byte) = code :: len :: rest → rest.length < len.toNat) ∧
    (State.reset.mlu.csnLow = false ∧ State.reset.mlu.frame = .idle ∧ frameComplete [32] = false) ∧
    (receiving.rstnLow = false ∧ receiving.mlu.csnLow = true ∧ receiving.mlu.frame = .receiving ∧
      frameComplete (receiving.mlu.staging ++ [1]) = false ∧ receiving.mlu.result = none ∧ receiving.mlu.sent = [] ∧
      receiving.mlu.staging ++ [0] = 32 :: 0 :: [] ∧ ([] : List Byte).length = (0 : Byte).toNat ∧
      frameCommand (receiving.mlu.staging ++ [0]) = some (.readStatus [])) ∧
    (∃ t, exec (.managementFrameCutOff .fall) State.reset = .next t) := by
  refine ⟨rfl, by decide, by decide, by decide, fun code len rest h => ?_, by decide +kernel, by decide +kernel, ⟨_, rfl⟩⟩
  injection h with _ h
  injection h with h1 h2
  subst h1 h2
  decide

/-- A pool of one small source with its CURRENT frame in slot 1, which RL0 holds: a state that has every law. -/
def lawful : State :=
  let s : State := State.reset
  { s with
    fpc := { s.fpc with
      plan := some { slots := 6, source := ⟨{ enabled := true, cols := 2, rows := 1, quota := 3 },
        { enabled := false, cols := 1, rows := 1, quota := 0 }⟩ }
      slots := [.free, shown true .s0 0 1 nobody, .free, .free, .free, .free]
      current := ⟨some 1, none⟩, nextFrame := ⟨1, 0⟩ }
    rl := { s.rl with r0 := { s.rl.r0 with
      link := { s.rl.r0.link with up := true }
      binding := some { source := .s0, window := tiny }, mark := some 0
      holds := [{ slot := 1, frame := 0, window := tiny }] } } }

/-- The one slot of `lawful` that is not FREE. -/
theorem lawful_slot (k : Nat) (c : Slot) (h : lawful.fpc.slots[k]? = some c) :
    c = .free ∨ (k = 1 ∧ c = shown true .s0 0 1 nobody) := by
  rcases k with _ | _ | _ | _ | _ | _ | k <;> simp [lawful] at h <;> simp [← h]

theorem lawful_analysed (k : Nat) (cur : Bool) (f : SealedFrame) (v : Verdict) (h : Nat) (o : PerRL Bool)
    (hk : lawful.fpc.slots[k]? = some (.analysed cur f v h o)) :
    k = 1 ∧ cur = true ∧ f = picture .s0 0 ∧ v = patch ∧ h = 1 ∧ o = nobody := by
  rcases lawful_slot k _ hk with h | ⟨rfl, h⟩
  · cases h
  · injection h with a b c d e
    exact ⟨rfl, a, b, c, d, e⟩

/-- The one frame in the pool of `lawful`. -/
theorem lawful_holds (k : Nat) (x : Src) (n : FrameNo) (h : Holds lawful k x n) : k = 1 ∧ x = .s0 ∧ n = 0 := by
  obtain ⟨c, hc, hs, hf⟩ := h
  rcases lawful_slot k c hc with rfl | ⟨rfl, rfl⟩
  · cases hs
  · injection hs with hs
    injection hf with hf
    exact ⟨rfl, hs.symm, hf.symm⟩

theorem lawful_recent : Recent lawful := by
  intro x k n h
  obtain ⟨rfl, rfl, rfl⟩ := lawful_holds k x n h
  decide

theorem lawful_life : LifeLaw lawful := by
  intro _
  refine ⟨fun x k => ⟨?_, ?_⟩, fun x k => ⟨?_, ?_⟩, fun k => ⟨?_, ?_⟩, fun k => ⟨?_, ?_⟩, List.nodup_nil, fun _ => rfl,
    fun x => ⟨?_, ?_⟩, List.nodup_nil, fun x h => by cases x <;> cases h⟩
  · rintro ⟨p, n, h⟩
    rcases lawful_slot k _ h with h | ⟨_, h⟩ <;> cases h
  · intro h
    cases x <;> cases h
  · rintro ⟨f, v, h, o, hk, hf⟩
    obtain ⟨rfl, -, rfl, -⟩ := lawful_analysed k _ _ _ _ _ hk
    subst hf
    rfl
  · intro h
    cases x with
    | s0 => cases h; exact ⟨picture .s0 0, patch, 1, nobody, rfl, rfl⟩
    | s1 => cases h
  · rintro ⟨f, h⟩
    rcases lawful_slot k _ h with h | ⟨_, h⟩ <;> cases h
  · rintro ⟨c, h, _⟩
    cases h
  · rintro ⟨f, h⟩
    rcases lawful_slot k _ h with h | ⟨_, h⟩ <;> cases h
  · intro h
    cases h
  · intro h
    cases x <;> cases h
  · rintro ⟨e, h, _⟩
    cases h

theorem lawful_bursts : BurstLaw lawful := by
  have none_carried : ∀ j, ¬ Carries lawful j := fun j ⟨b, h, _⟩ => by cases h
  refine ⟨⟨by decide, fun _ => ⟨rfl, fun r => ?_⟩, fun b h => (by cases h), fun n h => (by cases h),
    fun p h => (by cases h), fun b x a d h => (by cases h)⟩, ⟨rfl, none_carried _⟩, fun x => ?_, fun l => ?_⟩
  · cases r with
    | il x => cases x <;> rfl
    | det => rfl
    | rl l => cases l <;> rfl
  · cases x <;> exact ⟨rfl, fun _ _ => none_carried _⟩
  · cases l <;> exact ⟨rfl, none_carried _, rfl, by decide⟩

theorem lawful_holdLaw : HoldLaw lawful := by
  refine ⟨fun k => ?_, fun l => ⟨?_, ?_, ?_, ?_⟩⟩
  · rcases k with _ | _ | _ | _ | _ | _ | k <;> rfl
  · cases l <;> decide
  · cases l <;> decide
  · intro e he
    cases l <;> simp [lawful, PerRL.get, State.reset, RenditionLane.reset] at he
    subst he
    exact ⟨{ source := .s0, window := tiny }, 0, true, picture .s0 0, patch, 1, nobody, rfl, rfl, rfl, rfl, rfl, by decide⟩
  · intro h
    cases l <;> cases h

theorem lawful_numbers : NumberLaw lawful := by
  refine ⟨fun x j k n hj hk => ?_, fun x k n hk => ?_, fun x j k n m hj _ hs => ?_, fun x j n hj hs => ?_,
    fun x j k n m _ hk _ hs => ?_, fun x before after j k n m h => ?_⟩
  · rw [(lawful_holds j x n hj).1, (lawful_holds k x n hk).1]
  · obtain ⟨rfl, rfl, rfl⟩ := lawful_holds k x n hk
    decide
  · rw [(lawful_holds j x n hj).1] at hs
    cases hs
  · rw [(lawful_holds j x n hj).1] at hs
    cases hs
  · rw [(lawful_holds k x m hk).1] at hs
    rcases hs with hs | hs <;> cases hs
  · cases before <;> cases h

theorem lawful_safe : SafeState lawful := by
  refine ⟨fun r => ?_, ⟨⟨by decide, fun p hp => ?_, fun l => ?_⟩, fun c hc => (by cases hc)⟩, fun x => (by cases x <;> decide),
    ⟨by decide, by decide, by decide, fun l => (by cases l <;> decide), fun lane => ?_⟩, rfl,
    ⟨List.Pairwise.nil, by simp [lawful, State.reset]⟩, ⟨fun x => ?_, rfl, rfl⟩, lawful_life,
    ⟨fun k cur f v h o hk => ?_, fun c hc => (by cases hc)⟩, ⟨fun h => (by cases h), fun p hp => ?_⟩,
    ⟨fun c hc => (by cases hc), fun k cur f v h o hk => ?_⟩, lawful_holdLaw, ⟨fun k f v o hk => ?_, fun k cur f v h o l hk ho => ?_⟩,
    lawful_numbers, lawful_bursts, ⟨fun lane => ?_, fun x _ => (by cases x <;> rfl), fun l h => ?_, fun _ => rfl⟩⟩
  · cases r with
    | il x => cases x <;> decide
    | det => decide
    | rl l => cases l <;> decide
  · cases hp; decide
  · cases l <;> decide
  · cases lane with
    | il x => cases x <;> decide
    | rl l => cases l <;> decide
  · cases x <;> exact ⟨by decide +kernel, by decide +kernel⟩
  · obtain ⟨-, -, -, rfl, -⟩ := lawful_analysed k _ _ _ _ _ hk
    decide
  · cases hp
    exact ⟨rfl, by decide, by decide, fun x => by cases x <;> decide⟩
  · obtain ⟨-, -, rfl, rfl, -⟩ := lawful_analysed k _ _ _ _ _ hk
    decide
  · obtain ⟨-, h, -⟩ := lawful_analysed k _ _ _ _ _ hk
    cases h
  · obtain ⟨-, -, -, -, -, rfl⟩ := lawful_analysed k _ _ _ _ _ hk
    cases l <;> cases ho
  · cases lane with
    | il x => cases x <;> exact ⟨fun _ => ⟨rfl, rfl, rfl⟩, by decide, fun h => by cases h⟩
    | rl l => cases l <;> exact ⟨fun _ => ⟨rfl, rfl, rfl⟩, by decide, fun h => by cases h⟩
  · cases l with
    | r0 => cases h
    | r1 => exact ⟨rfl, rfl, rfl, rfl⟩
    | r2 => exact ⟨rfl, rfl, rfl, rfl⟩
    | r3 => exact ⟨rfl, rfl, rfl, rfl⟩

theorem witness_StepKeepsStores :
    MemoryLaw lawful ∧ TableLaw lawful ∧ DepthLaw lawful ∧ SequenceLaw lawful ∧ ∃ t, step lawful = .next t := by
  obtain ⟨-, -, -, hd, hs, hm, ht, -⟩ := lawful_safe
  exact ⟨hm, ht, hd, hs, _, rfl⟩

theorem witness_StepKeepsCreditsAndCaps : CreditLaw lawful ∧ CapLaw lawful ∧ ∃ t, step lawful = .next t :=
  ⟨lawful_safe.1, lawful_safe.2.1, _, rfl⟩

theorem witness_StepKeepsQuotasAndVerdicts :
    QuotaLaw lawful ∧ FrameLaw lawful ∧ PlanLaw lawful ∧ SafeState lawful ∧ ∃ t, step lawful = .next t := by
  obtain ⟨-, -, hq, -, -, -, -, -, hf, hp, -⟩ := lawful_safe
  exact ⟨hq, hf, hp, lawful_safe, _, rfl⟩

theorem witness_StepKeepsSlotLife : LifeLaw lawful ∧ lawful.rstnLow = false ∧ ∃ t, step lawful = .next t :=
  ⟨lawful_life, rfl, _, rfl⟩

theorem witness_StepKeepsHolds : SafeState lawful ∧ Recent lawful ∧ HoldLaw lawful ∧ slotHolds (lawful.slot 1) = 1 ∧
    ∃ t, step lawful = .next t := ⟨lawful_safe, lawful_recent, lawful_holdLaw, rfl, _, rfl⟩

theorem witness_StepKeepsNumbers : SafeState lawful ∧ Recent lawful ∧ NumberLaw lawful ∧
    lawful.fpc.slots[1]? = some (shown true .s0 0 1 nobody) ∧ slotSource (shown true .s0 0 1 nobody) = some .s0 ∧
    slotFrame (shown true .s0 0 1 nobody) = some 0 ∧ ∃ t, step lawful = .next t :=
  ⟨lawful_safe, lawful_recent, lawful_numbers, rfl, rfl, rfl, _, rfl⟩

theorem witness_StepKeepsBursts : SafeState lawful ∧ ∃ t, step lawful = .next t := ⟨lawful_safe, _, rfl⟩

theorem witness_HoldKeepsTheFrame :
    LifeLaw lawful ∧ SafeState lawful ∧ completes .periodEvent lawful ∧ lawful.fpc.plan.isSome = true ∧
    lawful.fpc.slots[1]? = some (.analysed true (picture .s0 0) patch (0 + 1) nobody) := ⟨lawful_life, lawful_safe, ⟨_, rfl⟩, rfl, rfl⟩

end Sys2Proof.Tests
end

section
/-! SUPPORT. What of the state the laws of the frame pool speak of, and the operations that leave all of it alone. -/

namespace Sys2Proof.Machine

/-- The part of the state that the laws of the pool speak of: the slots and the plan, the wait list, the lanes' open frames, waits,
bindings, marks and holds, and the analysis queue with the analysis under way. -/
structure PoolView where
  rstnLow : Bool
  plan : Option Plan
  slots : List Slot
  current : PerSource (Option Nat)
  nextFrame : PerSource FrameNo
  waitList : List WaitEntry
  openFrame : Src → Option Nat
  pendingOpen : Src → Option PendingOpen
  binding : RLane → Option Binding
  mark : RLane → Option FrameNo
  holds : RLane → List Hold
  pendingClaim : RLane → Option PendingClaim
  queue : List Nat
  ctx : Option AnalysisCtx

def State.pool (s : State) : PoolView where
  rstnLow := s.rstnLow
  plan := s.fpc.plan
  slots := s.fpc.slots
  current := s.fpc.current
  nextFrame := s.fpc.nextFrame
  waitList := s.fpc.waitList
  openFrame x := (s.il.get x).openFrame
  pendingOpen x := (s.il.get x).pendingOpen
  binding l := (s.rl.get l).binding
  mark l := (s.rl.get l).mark
  holds l := (s.rl.get l).holds
  pendingClaim l := (s.rl.get l).pendingClaim
  queue := s.cd.queue
  ctx := s.cd.ctx

/-! ### Reading the pool's part of an equal view -/

section
variable {s t : State} (h : t.pool = s.pool)
include h

theorem pool_rstnLow : t.rstnLow = s.rstnLow := congrArg PoolView.rstnLow h
theorem pool_plan : t.fpc.plan = s.fpc.plan := congrArg PoolView.plan h
theorem pool_slots : t.fpc.slots = s.fpc.slots := congrArg PoolView.slots h
theorem pool_current : t.fpc.current = s.fpc.current := congrArg PoolView.current h
theorem pool_nextFrame : t.fpc.nextFrame = s.fpc.nextFrame := congrArg PoolView.nextFrame h
theorem pool_waitList : t.fpc.waitList = s.fpc.waitList := congrArg PoolView.waitList h
theorem pool_queue : t.cd.queue = s.cd.queue := congrArg PoolView.queue h
theorem pool_ctx : t.cd.ctx = s.cd.ctx := congrArg PoolView.ctx h
theorem pool_openFrame (x : Src) : (t.il.get x).openFrame = (s.il.get x).openFrame :=
  congrFun (congrArg PoolView.openFrame h) x
theorem pool_pendingOpen (x : Src) : (t.il.get x).pendingOpen = (s.il.get x).pendingOpen :=
  congrFun (congrArg PoolView.pendingOpen h) x
theorem pool_binding (l : RLane) : (t.rl.get l).binding = (s.rl.get l).binding := congrFun (congrArg PoolView.binding h) l
theorem pool_mark (l : RLane) : (t.rl.get l).mark = (s.rl.get l).mark := congrFun (congrArg PoolView.mark h) l
theorem pool_holds (l : RLane) : (t.rl.get l).holds = (s.rl.get l).holds := congrFun (congrArg PoolView.holds h) l
theorem pool_pendingClaim (l : RLane) : (t.rl.get l).pendingClaim = (s.rl.get l).pendingClaim :=
  congrFun (congrArg PoolView.pendingClaim h) l

theorem pool_slot (k : Nat) : t.slot k = s.slot k := by simp only [State.slot, pool_slots h]
theorem pool_occupancy (x : Src) : t.occupancy x = s.occupancy x := by simp only [State.occupancy, pool_slots h]
theorem pool_quota (x : Src) : t.quota x = s.quota x := by simp only [State.quota, State.sourcePlan, pool_plan h]
theorem pool_cols (x : Src) : t.cols x = s.cols x := by simp only [State.cols, State.sourcePlan, pool_plan h]
theorem pool_rows (x : Src) : t.rows x = s.rows x := by simp only [State.rows, State.sourcePlan, pool_plan h]
theorem pool_boundTo (l : RLane) (x : Src) : t.boundTo l x = s.boundTo l x := by
  simp only [State.boundTo, pool_binding h]

end

/-! ### Updates of a lane -/

theorem PerSource.comp_get_set {α β : Type} (g : α → β) (p : PerSource α) (x : Src) (v : α) :
    (fun y => g ((p.set x v).get y)) = Function.update (fun y => g (p.get y)) x (g v) := by
  funext y
  rw [PerSource.get_set, Function.update_apply]
  split <;> rfl

theorem PerRL.comp_get_set {α β : Type} (g : α → β) (p : PerRL α) (l : RLane) (v : α) :
    (fun j => g ((p.set l v).get j)) = Function.update (fun j => g (p.get j)) l (g v) := by
  funext j
  rw [PerRL.get_set, Function.update_apply]
  split <;> rfl

/-- An ingest lane's update, as the laws of the pool see it. -/
theorem pool_modIl_eq (s : State) (x : Src) (f : IngestLane → IngestLane) :
    (s.modIl x f).pool = { s.pool with
      openFrame := Function.update s.pool.openFrame x (f (s.il.get x)).openFrame
      pendingOpen := Function.update s.pool.pendingOpen x (f (s.il.get x)).pendingOpen } := by
  simp only [State.pool, State.modIl_il, State.modIl_rstnLow, State.modIl_fpc, State.modIl_rl, State.modIl_cd,
    PerSource.comp_get_set IngestLane.openFrame, PerSource.comp_get_set IngestLane.pendingOpen]

/-- A change of the Frame Pool Controller's state, as the laws of the pool see it. -/
theorem pool_fpc_eq (s : State) (g : Fpc) :
    ({ s with fpc := g } : State).pool = { s.pool with
      plan := g.plan, slots := g.slots, current := g.current, nextFrame := g.nextFrame, waitList := g.waitList } := rfl

theorem pool_setSlot_eq (s : State) (k : Nat) (v : Slot) :
    (s.setSlot k v).pool = { s.pool with slots := s.pool.slots.set k v } := rfl

theorem pool_mapSlots_eq (s : State) (f : Slot → Slot) :
    (s.mapSlots f).pool = { s.pool with slots := s.pool.slots.map f } := rfl

/-- A rendition lane's update, as the laws of the pool see it. -/
theorem pool_modRl_eq (s : State) (l : RLane) (f : RenditionLane → RenditionLane) :
    (s.modRl l f).pool = { s.pool with
      binding := Function.update s.pool.binding l (f (s.rl.get l)).binding
      mark := Function.update s.pool.mark l (f (s.rl.get l)).mark
      holds := Function.update s.pool.holds l (f (s.rl.get l)).holds
      pendingClaim := Function.update s.pool.pendingClaim l (f (s.rl.get l)).pendingClaim } := by
  simp only [State.pool, State.modRl_rl, State.modRl_rstnLow, State.modRl_fpc, State.modRl_il, State.modRl_cd,
    PerRL.comp_get_set RenditionLane.binding, PerRL.comp_get_set RenditionLane.mark,
    PerRL.comp_get_set RenditionLane.holds, PerRL.comp_get_set RenditionLane.pendingClaim]

theorem pool_modIl (s : State) (x : Src) (f : IngestLane → IngestLane)
    (ho : (f (s.il.get x)).openFrame = (s.il.get x).openFrame)
    (hp : (f (s.il.get x)).pendingOpen = (s.il.get x).pendingOpen) : (s.modIl x f).pool = s.pool := by
  rw [pool_modIl_eq, ho, hp]
  exact congrArg₂ (fun o p => ({ s.pool with openFrame := o, pendingOpen := p } : PoolView))
    (Function.update_eq_self x s.pool.openFrame) (Function.update_eq_self x s.pool.pendingOpen)

theorem pool_modRl (s : State) (l : RLane) (f : RenditionLane → RenditionLane)
    (hb : (f (s.rl.get l)).binding = (s.rl.get l).binding) (hm : (f (s.rl.get l)).mark = (s.rl.get l).mark)
    (hh : (f (s.rl.get l)).holds = (s.rl.get l).holds)
    (hp : (f (s.rl.get l)).pendingClaim = (s.rl.get l).pendingClaim) : (s.modRl l f).pool = s.pool := by
  have eb := Function.update_eq_self l s.pool.binding
  have em := Function.update_eq_self l s.pool.mark
  have eh := Function.update_eq_self l s.pool.holds
  have ep := Function.update_eq_self l s.pool.pendingClaim
  rw [pool_modRl_eq, hb, hm, hh, hp]
  simp only [State.pool] at eb em eh ep ⊢
  rw [eb, em, eh, ep]

@[simp] theorem pool_modLink (s : State) (lane : Lane) (f : Link → Link) : (s.modLink lane f).pool = s.pool := by
  cases lane with
  | il x => exact pool_modIl s x _ rfl rfl
  | rl l => exact pool_modRl s l _ rfl rfl rfl rfl

@[simp] theorem pool_modCounters (s : State) (x : Src) (f : SourceCounters → SourceCounters) :
    (s.modCounters x f).pool = s.pool := rfl

@[simp] theorem pool_modCadence (s : State) (x : Src) (f : Cadence → Cadence) : (s.modCadence x f).pool = s.pool := rfl

/-! ### Answers, notices and events -/

@[simp] theorem pool_pushAnswer (lane : Lane) (a : Answer) (s : State) : (pushAnswer lane a s).pool = s.pool :=
  pool_modLink ..

@[simp] theorem pool_answerHead (lane : Lane) (c : AnswerCode) (b : List Byte) (s : State) :
    (answerHead lane c b s).pool = s.pool := by
  unfold answerHead
  split
  · rfl
  · exact pool_modLink ..

@[simp] theorem pool_placeNotice (l : RLane) (n : Notice) (s : State) : (placeNotice l n s).pool = s.pool := by
  unfold placeNotice
  apply pool_modRl <;> split <;> rfl

@[simp] theorem pool_fireChannel (c : Nat) (e : Event) (s : State) : (fireChannel c e s).pool = s.pool := by
  exact foldl_keep State.pool _ (fun u l => by split <;> simp) rlAll s

@[simp] theorem pool_fireEvent (e : Event) (s : State) : (fireEvent e s).pool = s.pool :=
  foldl_keep State.pool _ (fun u c => by split <;> simp) _ _

@[simp] theorem pool_notePoolLow (n : Nat) (s : State) : (notePoolLow n s).pool = s.pool := by
  unfold notePoolLow
  split <;> simp

@[simp] theorem pool_evictFrame (k : Nat) (s : State) : (evictFrame k s).pool = s.pool := by
  unfold evictFrame
  split
  · next f _ _ owed hk =>
    simp only [pool_fireEvent, pool_modCounters]
    refine foldl_keep State.pool _ (fun u l => ?_) rlAll s
    split
    · rw [pool_modRl _ _ _ rfl rfl rfl rfl, pool_placeNotice]
    · rfl
  · rfl

@[simp] theorem pool_sendReady (k : Nat) (s : State) : (sendReady k s).pool = s.pool := by
  unfold sendReady
  split
  · exact foldl_keep State.pool _ (fun u l => by split <;> simp) _ _
  · rfl

@[simp] theorem pool_sendRepeats (x : Src) (n : FrameNo) (c : Count16) (s : State) : (sendRepeats x n c s).pool = s.pool :=
  foldl_keep State.pool _ (fun u l => by split <;> simp) _ _

@[simp] theorem pool_checkStall (x : Src) (n : FrameNo) (s : State) : (checkStall x n s).pool = s.pool := by
  unfold checkStall
  dsimp only
  split <;> simp

@[simp] theorem pool_repeatFrame (x : Src) (n : FrameNo) (s : State) : (repeatFrame x n s).pool = s.pool := by
  simp [repeatFrame]

@[simp] theorem pool_captureCue (s : State) : (captureCue s).pool = s.pool := by
  unfold captureCue
  dsimp only
  split
  · rw [pool_fireEvent]; rfl
  · rfl

/-! ### The scheduler and the transmitter -/

@[simp] theorem pool_beginBand (r : Requester) (s : State) : (beginBand r s).pool = s.pool := by
  cases r with
  | rl l => exact pool_modRl _ _ _ rfl rfl rfl rfl
  | il x => rfl
  | det => rfl

@[simp] theorem pool_makeGrant (s : State) : (makeGrant s).pool = s.pool := by
  rcases makeGrant_cases s with h | ⟨r, c, -, -, -, -, h⟩
  · rw [h]
  · rw [h, pool_beginBand]; rfl

@[simp] theorem pool_placeRequest (r : Requester) (c : Nat) (s : State) : (placeRequest r c s).pool = s.pool := by
  rw [placeRequest, pool_makeGrant]; rfl

@[simp] theorem pool_endBurst (s : State) : (endBurst s).pool = s.pool := by
  rw [endBurst, pool_makeGrant]; rfl

@[simp] theorem pool_dropRequests (r : Requester) (s : State) : (dropRequests r s).pool = s.pool := rfl

@[simp] theorem pool_bufferBand (l : RLane) (b : Band) (s : State) : (bufferBand l b s).pool = s.pool :=
  pool_modRl _ _ _ rfl rfl rfl rfl

@[simp] theorem pool_bandSent (l : RLane) (s : State) : (bandSent l s).pool = s.pool := by
  unfold bandSent
  split
  · exact pool_modRl _ _ _ rfl rfl rfl rfl
  · split
    · rw [pool_answerHead]; exact pool_modRl _ _ _ rfl rfl rfl rfl
    · rw [pool_placeRequest]; exact pool_modRl _ _ _ rfl rfl rfl rfl

/-- The transmitter takes the oldest waiting answer or band, or the oldest notice. -/
theorem takeOutgoing_cases {lane : Lane} {s t : State} {r : OutRecord} (h : takeOutgoing lane s = some (r, t)) :
    (∃ rest, t = s.modLink lane (fun k => { k with outgoing := rest, ahead := k.ahead - 1 })) ∨
    ∃ l n rest, lane = .rl l ∧ (s.rl.get l).notices = n :: rest ∧
      t = s.modRl l (fun k => { k with notices := rest, overrun := false }) := by
  cases lane with
  | il x =>
    simp only [takeOutgoing] at h
    repeat' split at h
    all_goals cases h
    exact .inl ⟨_, rfl⟩
  | rl l =>
    simp only [takeOutgoing] at h
    repeat' split at h
    all_goals cases h
    all_goals first
      | exact .inl ⟨_, rfl⟩
      | exact .inr ⟨_, _, _, rfl, ‹_›, rfl⟩

theorem pool_takeOutgoing {lane : Lane} {s t : State} {r : OutRecord} (h : takeOutgoing lane s = some (r, t)) :
    t.pool = s.pool := by
  rcases takeOutgoing_cases h with ⟨rest, rfl⟩ | ⟨l, n, rest, -, -, rfl⟩
  · exact pool_modLink ..
  · exact pool_modRl _ _ _ rfl rfl rfl rfl

@[simp] theorem pool_beginSend (lane : Lane) (s : State) : (beginSend lane s).pool = s.pool := by
  unfold beginSend
  split
  · rfl
  · split
    · next h => rw [pool_modLink, pool_takeOutgoing h]
    · rfl

@[simp] theorem pool_endSend (lane : Lane) (s : State) : (endSend lane s).pool = s.pool := by
  unfold endSend
  split
  · rfl
  · dsimp only
    split <;> simp

@[simp] theorem pool_queueRequest (lane : Lane) (r : Request) (s : State) : (queueRequest lane r s).pool = s.pool := by
  unfold queueRequest
  dsimp only
  split <;> simp

end Sys2Proof.Machine
end

section
/-! SUPPORT. What an event's aftermath may do to the pool: serve the wait list and free slots, said as single moves. -/

namespace Sys2Proof.Machine

/-! ### Slots by their id -/

theorem slot_of_getElem? {s : State} {k : Nat} {c : Slot} (h : s.fpc.slots[k]? = some c) : s.slot k = c := by
  simp [State.slot, List.getD_eq_getElem?_getD, h]

theorem getElem?_of_slot {s : State} {k : Nat} {c : Slot} (h : s.slot k = c) (hc : c ≠ .free) :
    s.fpc.slots[k]? = some c := by
  rw [State.slot, List.getD_eq_getElem?_getD] at h
  cases hk : s.fpc.slots[k]? with
  | none => rw [hk] at h; exact absurd h.symm hc
  | some d => rw [hk] at h; exact congrArg some h

theorem getElem?_set_eq_some {α : Type} {xs : List α} {k j : Nat} {v c : α} :
    (xs.set k v)[j]? = some c ↔ (j = k ∧ k < xs.length ∧ c = v) ∨ (j ≠ k ∧ xs[j]? = some c) := by
  rw [List.getElem?_set]
  by_cases h : k = j
  · subst h
    by_cases hk : k < xs.length
    · simp [hk, eq_comm]
    · simp [hk]
  · simp [h, Ne.symm h]

/-! ### The lowest frame -/

/-- What one slot does to the lowest frame found so far. -/
def lowerOf (p : Slot → Bool) (best : Option (Nat × FrameNo)) (c : Slot × Nat) : Option (Nat × FrameNo) :=
  match p c.1, slotFrame c.1, best with
  | true, some n, none => some (c.2, n)
  | true, some n, some (j, m) => if frameBelow n m then some (c.2, n) else some (j, m)
  | _, _, _ => best

/-- The lowest frame found among the slots, with its slot id. -/
def lowestOf (p : Slot → Bool) (slots : List Slot) : Option (Nat × FrameNo) := slots.zipIdx.foldl (lowerOf p) none

theorem lowestFrame_eq (p : Slot → Bool) (slots : List Slot) : lowestFrame p slots = (lowestOf p slots).map Prod.fst := rfl

theorem lowestOf_concat (p : Slot → Bool) (slots : List Slot) (c : Slot) :
    lowestOf p (slots ++ [c]) = lowerOf p (lowestOf p slots) (c, slots.length) := by
  simp [lowestOf, List.zipIdx_append]

/-- A slot that fails the test, or has no frame, changes nothing. -/
theorem lowerOf_skip {p : Slot → Bool} {c : Slot × Nat} (h : ∀ n, p c.1 = true → slotFrame c.1 ≠ some n)
    (best : Option (Nat × FrameNo)) : lowerOf p best c = best := by
  unfold lowerOf
  split
  · next hp hn => exact absurd hn (h _ hp)
  · next hp hn => exact absurd hn (h _ hp)
  · rfl

/-- A slot that passes the test with a frame becomes the lowest, or the one before stays because the frame is not below it. -/
theorem lowerOf_pass {p : Slot → Bool} {c : Slot × Nat} {n : FrameNo} (hp : p c.1 = true) (hn : slotFrame c.1 = some n)
    (best : Option (Nat × FrameNo)) :
    (lowerOf p best c = some (c.2, n) ∧ ∀ j m, best = some (j, m) → frameBelow n m = true) ∨
    ∃ j m, best = some (j, m) ∧ lowerOf p best c = best ∧ frameBelow n m = false := by
  unfold lowerOf
  rw [hp, hn]
  cases best with
  | none => exact .inl ⟨rfl, by simp⟩
  | some b =>
    cases hb : frameBelow n b.2 with
    | true => exact .inl ⟨by simp [hb], by rintro j m ⟨⟩; exact hb⟩
    | false => exact .inr ⟨b.1, b.2, rfl, by simp [hb], hb⟩

/-- The lowest frame found is a frame of a slot that passes the test. -/
theorem lowestOf_mem {p : Slot → Bool} {slots : List Slot} {k : Nat} {n : FrameNo} (h : lowestOf p slots = some (k, n)) :
    ∃ c, slots[k]? = some c ∧ p c = true ∧ slotFrame c = some n := by
  induction slots using List.reverseRecOn with
  | nil => cases h
  | append_singleton slots d ih =>
    have old : lowestOf p slots = some (k, n) → ∃ c, (slots ++ [d])[k]? = some c ∧ p c = true ∧ slotFrame c = some n := by
      intro h
      obtain ⟨c, hc, hp, hn⟩ := ih h
      exact ⟨c, by rw [List.getElem?_append_left (List.getElem?_eq_some_iff.mp hc).1]; exact hc, hp, hn⟩
    rw [lowestOf_concat] at h
    by_cases hd : ∃ m, p d = true ∧ slotFrame d = some m
    · obtain ⟨m, hp, hm⟩ := hd
      rcases lowerOf_pass (c := (d, slots.length)) hp hm (lowestOf p slots) with ⟨e, -⟩ | ⟨-, -, -, e, -⟩
      · rw [e] at h
        cases h
        exact ⟨d, by simp, hp, hm⟩
      · exact old (e ▸ h)
    · rw [lowerOf_skip (fun m hp hm => hd ⟨m, hp, hm⟩)] at h
      exact old h

/-- No lowest frame is found exactly when no slot that passes the test has a frame. -/
theorem lowestOf_eq_none {p : Slot → Bool} {slots : List Slot} :
    lowestOf p slots = none ↔ ∀ c, c ∈ slots → p c = true → slotFrame c = none := by
  induction slots using List.reverseRecOn with
  | nil => simp [lowestOf]
  | append_singleton slots d ih =>
    rw [lowestOf_concat]
    by_cases hd : ∃ m, p d = true ∧ slotFrame d = some m
    · obtain ⟨m, hp, hm⟩ := hd
      have hsome : lowerOf p (lowestOf p slots) (d, slots.length) ≠ none := by
        rcases lowerOf_pass (c := (d, slots.length)) hp hm (lowestOf p slots) with ⟨e, -⟩ | ⟨j, m, hb, e, -⟩
        · simp [e]
        · rw [e, hb]; simp
      refine ⟨fun h => absurd h hsome, fun h => ?_⟩
      rw [h d (by simp) hp] at hm
      cases hm
    · rw [lowerOf_skip (fun m hp hm => hd ⟨m, hp, hm⟩), ih]
      refine ⟨fun h c hc hp => ?_, fun h c hc => h c (by simp [hc])⟩
      rcases List.mem_append.mp hc with hc | hc
      · exact h c hc hp
      · obtain rfl := List.mem_singleton.mp hc
        cases hf : slotFrame c with
        | none => rfl
        | some m => exact absurd ⟨m, hp, hf⟩ hd

/-! ### Opening a frame -/

/-- An open of source x may fill slot k: it is FREE and x is below its quota, or it is STALE, of x, and nothing holds it (R20). -/
def Fillable (x : Src) (k : Nat) (s : State) : Prop :=
  (s.fpc.slots[k]? = some .free ∧ s.occupancy x < s.quota x) ∨
  ∃ f v o, s.fpc.slots[k]? = some (.analysed false f v 0 o) ∧ f.source = x

/-- The slot that a choice fills. -/
def OpenChoice.slot : OpenChoice → Nat
  | .fromFree k => k
  | .evict k => k

theorem isCandidate_eq_true {x : Src} {c : Slot} :
    isCandidate x c = true ↔ ∃ f v o, c = .analysed false f v 0 o ∧ f.source = x ∧ laneSetEmpty o = false := by
  constructor
  · intro h
    unfold isCandidate at h
    split at h
    · next f v o =>
      simp only [Bool.and_eq_true, decide_eq_true_eq, Bool.not_eq_true'] at h
      exact ⟨f, v, o, rfl, h.1, h.2⟩
    · cases h
  · rintro ⟨f, v, o, rfl, hx, ho⟩
    simp [isCandidate, hx, ho]

theorem slotUsed_eq_false {c : Slot} : slotUsed c = false ↔ c = .free := by
  unfold slotUsed
  match c with
  | .free => simp [slotState]
  | .filling _ _ _ => simp [slotState]
  | .queued _ => simp [slotState]
  | .analysing _ => simp [slotState]
  | .analysed true _ _ _ _ => simp [slotState]
  | .analysed false _ _ _ _ => simp [slotState]

/-- The lowest FREE slot, when the source is below its quota. -/
def freeChoice (x : Src) (s : State) : Option Nat :=
  if s.occupancy x < s.quota x then s.fpc.slots.findIdx? (fun k => !slotUsed k) else none

theorem freeChoice_eq_some {x : Src} {s : State} {k : Nat} :
    freeChoice x s = some k ↔ s.occupancy x < s.quota x ∧ s.fpc.slots[k]? = some .free ∧
      ∀ j, j < k → s.fpc.slots[j]? ≠ some .free := by
  unfold freeChoice
  split
  · next hq =>
    rw [List.findIdx?_eq_some_iff_getElem]
    simp only [hq, true_and, Bool.not_eq_true', slotUsed_eq_false]
    constructor
    · rintro ⟨hk, hf, hl⟩
      refine ⟨by rw [List.getElem?_eq_getElem hk, hf], fun j hj he => ?_⟩
      obtain ⟨hj', he⟩ := List.getElem?_eq_some_iff.mp he
      exact hl j hj he
    · rintro ⟨hf, hl⟩
      obtain ⟨hk, hf⟩ := List.getElem?_eq_some_iff.mp hf
      refine ⟨hk, hf, fun j hj => ?_⟩
      exact fun he => hl j hj (by rw [List.getElem?_eq_getElem (by omega), he])
  · next hq => simp [hq]

theorem freeChoice_eq_none {x : Src} {s : State} :
    freeChoice x s = none ↔ ¬ (s.occupancy x < s.quota x ∧ ∃ k : Nat, s.fpc.slots[k]? = some Slot.free) := by
  constructor
  · rintro h ⟨hq, k, hk⟩
    rw [freeChoice, if_pos hq, List.findIdx?_eq_none_iff] at h
    have := h _ (List.mem_of_getElem? hk)
    simp [slotUsed, slotState] at this
  · intro h
    cases hc : freeChoice x s with
    | none => rfl
    | some k =>
      obtain ⟨hq, hk, -⟩ := freeChoice_eq_some.mp hc
      exact absurd ⟨hq, k, hk⟩ h

/-- Steps 1 and 2 of R20. -/
theorem openChoice_eq (x : Src) (s : State) :
    openChoice x s = match freeChoice x s with
      | some k => some (.fromFree k)
      | none => (lowestFrame (isCandidate x) s.fpc.slots).map .evict := rfl

theorem openChoice_fromFree {x : Src} {s : State} {k : Nat} :
    openChoice x s = some (.fromFree k) ↔ freeChoice x s = some k := by
  rw [openChoice_eq]
  cases freeChoice x s with
  | some j => simp
  | none => simp

theorem openChoice_evict {x : Src} {s : State} {k : Nat} :
    openChoice x s = some (.evict k) ↔ freeChoice x s = none ∧ lowestFrame (isCandidate x) s.fpc.slots = some k := by
  rw [openChoice_eq]
  cases freeChoice x s with
  | some j => simp
  | none => simp

theorem openChoice_none {x : Src} {s : State} :
    openChoice x s = none ↔ freeChoice x s = none ∧ lowestFrame (isCandidate x) s.fpc.slots = none := by
  rw [openChoice_eq]
  cases freeChoice x s with
  | some j => simp
  | none => simp

/-- What R20 chooses is a slot that the open may fill. -/
theorem openChoice_fillable {x : Src} {s : State} {c : OpenChoice} (h : openChoice x s = some c) : Fillable x c.slot s := by
  cases c with
  | fromFree k =>
    obtain ⟨hq, hk, -⟩ := freeChoice_eq_some.mp (openChoice_fromFree.mp h)
    exact .inl ⟨hk, hq⟩
  | evict k =>
    obtain ⟨-, hl⟩ := openChoice_evict.mp h
    rw [lowestFrame_eq, Option.map_eq_some_iff] at hl
    obtain ⟨⟨j, n⟩, hl, rfl⟩ := hl
    obtain ⟨c, hc, hp, -⟩ := lowestOf_mem hl
    obtain ⟨f, v, o, rfl, hx, -⟩ := isCandidate_eq_true.mp hp
    exact .inr ⟨f, v, o, hc, hx⟩

/-- The source's entry leaves the slot wait list. -/
def unlist (x : Src) (s : State) : State :=
  { s with fpc := { s.fpc with waitList := s.fpc.waitList.filter (fun w => w.source ≠ x) } }

@[simp] theorem unlist_il (x : Src) (s : State) : (unlist x s).il = s.il := rfl
@[simp] theorem unlist_rl (x : Src) (s : State) : (unlist x s).rl = s.rl := rfl
@[simp] theorem unlist_cd (x : Src) (s : State) : (unlist x s).cd = s.cd := rfl
@[simp] theorem unlist_rstnLow (x : Src) (s : State) : (unlist x s).rstnLow = s.rstnLow := rfl

@[simp] theorem unlist_slots (x : Src) (s : State) : (unlist x s).fpc.slots = s.fpc.slots := rfl
@[simp] theorem unlist_current (x : Src) (s : State) : (unlist x s).fpc.current = s.fpc.current := rfl
@[simp] theorem unlist_nextFrame (x : Src) (s : State) : (unlist x s).fpc.nextFrame = s.fpc.nextFrame := rfl
@[simp] theorem unlist_plan (x : Src) (s : State) : (unlist x s).fpc.plan = s.fpc.plan := rfl

theorem pool_unlist_eq (x : Src) (s : State) :
    (unlist x s).pool = { s.pool with waitList := s.pool.waitList.filter (fun w => w.source ≠ x) } := rfl

/-- A slot filled, as the laws of the pool see it. -/
theorem pool_fillSlot (x : Src) (p : Pts) (k : Nat) (s : State) :
    (fillSlot x p k s).pool = { s.pool with
      slots := s.pool.slots.set k (.filling x p 0)
      openFrame := Function.update s.pool.openFrame x (some k)
      pendingOpen := Function.update s.pool.pendingOpen x none } := by
  rw [fillSlot, pool_modIl_eq]
  rfl

/-- An open served fills its slot, as the laws of the pool see it. -/
theorem pool_serveOpen (x : Src) (p : Pts) (c : OpenChoice) (s : State) :
    (serveOpen x p c s).pool = (fillSlot x p c.slot s).pool := by
  cases c with
  | fromFree k => simp [serveOpen, OpenChoice.slot]
  | evict k => simp [serveOpen, OpenChoice.slot, pool_fillSlot]

/-! ### The moves of an aftermath -/

/-- One move of the pool after an event: nothing; a waiting open is served; or a STALE slot that nothing holds becomes FREE
(R13, R23). -/
inductive Move (s t : State) : Prop
  | same (h : t.pool = s.pool)
  | serve (e : WaitEntry) (k : Nat) (he : e ∈ s.fpc.waitList) (hk : Fillable e.source k s)
      (h : t.pool = (fillSlot e.source e.pts k (unlist e.source s)).pool)
  | free (k : Nat) (f : SealedFrame) (v : Verdict) (o : PerRL Bool) (hk : s.fpc.slots[k]? = some (.analysed false f v 0 o))
      (h : t.pool = (s.setSlot k .free).pool)

/-- The moves that follow an event. -/
abbrev Aftermath : State → State → Prop := Relation.ReflTransGen Move

theorem Aftermath.of_pool {s t : State} (h : t.pool = s.pool) : Aftermath s t := .single (.same h)

/-- What every move keeps, an aftermath keeps. -/
theorem Aftermath.keeps {P : State → Prop} (h : ∀ u v, P u → Move u v → P v) {s t : State} (m : Aftermath s t) (hs : P s) : P t := by
  induction m with
  | refl => exact hs
  | tail _ m ih => exact h _ _ ih m

/-- A STALE slot that nothing holds and no lane is owed, whose free check has not come. -/
def Unwanted (s : State) (k : Nat) : Prop :=
  ∃ f v o, s.fpc.slots[k]? = some (.analysed false f v 0 o) ∧ laneSetEmpty o = true

theorem serveWaitOnce_move {s t : State} (h : serveWaitOnce s = some t) : Move s t := by
  obtain ⟨e, c, he, hc, rfl⟩ := serveWaitOnce_eq_some h
  exact .serve e c.slot (List.mem_of_find?_eq_some he) (openChoice_fillable hc) (pool_serveOpen ..)

theorem serveWaitList_aftermath (s : State) : Aftermath s (serveWaitList s) :=
  serveWaitList_inv (Aftermath s) (fun _ _ hu ht => hu.tail (serveWaitOnce_move ht)) s .refl

theorem examineSlot_aftermath (was : Slot) (k : Nat) (s : State) : Aftermath s (examineSlot was k s) := by
  rcases examineSlot_cases was k s with h | h | ⟨f, v, o, hk, ho, h⟩
  · rw [h]
  · rw [h]; exact serveWaitList_aftermath s
  · rw [h]
    exact .head (.free k f v o (getElem?_of_slot hk (by simp)) rfl) (serveWaitList_aftermath _)

/-- A move makes no slot unwanted. -/
theorem Move.unwanted {s t : State} (m : Move s t) {k : Nat} (h : Unwanted t k) : Unwanted s k := by
  obtain ⟨f, v, o, hk, ho⟩ := h
  have set : ∀ {j : Nat} {c : Slot}, c ≠ .analysed false f v 0 o → t.fpc.slots = s.fpc.slots.set j c → Unwanted s k := by
    intro j c hc e
    rw [e, getElem?_set_eq_some] at hk
    rcases hk with ⟨-, -, rfl⟩ | ⟨-, hk⟩
    · exact absurd rfl hc
    · exact ⟨f, v, o, hk, ho⟩
  cases m with
  | same e => exact ⟨f, v, o, pool_slots e ▸ hk, ho⟩
  | serve e j _ _ e => exact set (by simp) (pool_slots e)
  | free j _ _ _ _ e => exact set (by simp) (pool_slots e)

theorem Aftermath.unwanted {s t : State} (m : Aftermath s t) {k : Nat} (h : Unwanted t k) : Unwanted s k := by
  by_contra hs
  exact m.keeps (P := fun u => ¬ Unwanted u k) (fun _ _ hu m ht => hu (m.unwanted ht)) hs h

theorem Move.length {s t : State} (m : Move s t) : t.fpc.slots.length = s.fpc.slots.length := by
  cases m with
  | same e => rw [pool_slots e]
  | serve _ _ _ _ e => rw [pool_slots e]; simp [fillSlot, unlist]
  | free _ _ _ _ _ e => rw [pool_slots e]; simp

theorem Aftermath.length {s t : State} (m : Aftermath s t) : t.fpc.slots.length = s.fpc.slots.length :=
  m.keeps (P := fun u => u.fpc.slots.length = s.fpc.slots.length) (fun _ _ hu m => m.length.trans hu) rfl

/-- After its free check a slot is not left unwanted. -/
theorem examineSlot_not_unwanted (was : Slot) (k : Nat) (s : State) : ¬ Unwanted (examineSlot was k s) k := by
  intro h
  have hs := (examineSlot_aftermath was k s).unwanted h
  obtain ⟨f, v, o, hk, ho⟩ := hs
  have e : examineSlot was k s = serveWaitList (s.setSlot k .free) := by
    simp only [examineSlot, slot_of_getElem? hk, ho, if_true]
  rw [e] at h
  obtain ⟨f', v', o', hk', -⟩ := (serveWaitList_aftermath _).unwanted h
  simp [getElem?_set_eq_some] at hk'

/-- The slots an event touched have been examined: the aftermath that follows, and no touched slot is left unwanted (R13, R18). -/
structure Settled (before : List Slot) (s t : State) : Prop where
  moves : Aftermath s t
  clean : ∀ k, k < before.length → touched (before.getD k .free) (s.slot k) = true → ¬ Unwanted t k

/-- Settling speaks of the pool's part alone. -/
theorem Settled.congr {before : List Slot} {s s' t t' : State} (h : Settled before s t) (hs : s'.pool = s.pool)
    (ht : t'.pool = t.pool) : Settled before s' t' := by
  refine ⟨(Aftermath.of_pool hs.symm).trans (h.moves.trans (Aftermath.of_pool ht)), fun k hk hc hu => ?_⟩
  rw [pool_slot hs] at hc
  obtain ⟨f, v, o, hk', ho⟩ := hu
  exact h.clean k hk hc ⟨f, v, o, pool_slots ht ▸ hk', ho⟩

/-- One slot of an event's free checks. -/
def examineTouched (before : List Slot) (s t : State) (k : Nat) : State :=
  if touched (before.getD k .free) (s.slot k) then examineSlot (before.getD k .free) k t else t

theorem settle_eq (before : List Slot) (s : State) :
    settle before s = (List.range before.length).foldl (examineTouched before s) s := rfl

theorem settle_settled (before : List Slot) (s : State) : Settled before s (settle before s) := by
  suffices h : ∀ n, Aftermath s ((List.range n).foldl (examineTouched before s) s) ∧ ∀ k, k < n →
      touched (before.getD k .free) (s.slot k) = true →
      ¬ Unwanted ((List.range n).foldl (examineTouched before s) s) k from ⟨(h _).1, (h _).2⟩
  intro n
  induction n with
  | zero => exact ⟨.refl, by omega⟩
  | succ n ih =>
    obtain ⟨hm, hu⟩ := ih
    rw [List.range_succ, List.foldl_append]
    simp only [List.foldl_cons, List.foldl_nil, examineTouched]
    split
    · next ht =>
      refine ⟨hm.trans (examineSlot_aftermath ..), fun k hk htk => ?_⟩
      rcases Nat.lt_succ_iff_lt_or_eq.mp hk with hk | rfl
      · exact fun h => hu k hk htk ((examineSlot_aftermath ..).unwanted h)
      · exact examineSlot_not_unwanted _ _ _
    · next ht =>
      refine ⟨hm, fun k hk htk => ?_⟩
      rcases Nat.lt_succ_iff_lt_or_eq.mp hk with hk | rfl
      · exact hu k hk htk
      · exact absurd htk ht

end Sys2Proof.Machine
end

section
/-! SUPPORT. What a command can do to the part of the state that the laws of the pool speak of: one constructor per way, with the
guards that the command's own checks give, and the proof that every command does one of them. -/

namespace Sys2Proof.Machine

open Sys2Proof Sys2Proof.Claims

/-! ### The middles of the commands -/

/-- The open of a source's lane waits no longer. -/
def dropWait (x : Src) (s : State) : State := (unlist x s).modIl x (fun r => { r with pendingOpen := none })

/-- The open frame of a source's lane is given up: its slot becomes FREE. -/
def leaveFrame (x : Src) (s : State) : State :=
  match (s.il.get x).openFrame with
  | some k => (s.setSlot k .free).modIl x (fun r => { r with openFrame := none })
  | none => s

/-- An open joins the slot wait list. -/
def joinWait (x : Src) (tag : Byte) (p : Pts) (due : Stamp) (s : State) : State :=
  ({ s with fpc := { s.fpc with waitList := s.fpc.waitList ++ [{ source := x, pts := p, deadline := due }] } } : State).modIl x
    (fun r => { r with pendingOpen := some { tag := tag, pts := p, deadline := due } })

/-- The FILLING slot k of source y sealed by lane x, before an idle detector starts. -/
def sealedState (x : Src) (k : Nat) (y : Src) (p : Pts) (s : State) : State :=
  ({ s with
    fpc := { s.fpc with
      slots := s.fpc.slots.set k (.queued { source := y, number := s.fpc.nextFrame.get x, pts := p, arrival := s.tcu.time })
      nextFrame := s.fpc.nextFrame.set x (s.fpc.nextFrame.get x + 1) }
    cd := { s.cd with queue := s.cd.queue ++ [k] } } : State).modIl x (fun r => { r with openFrame := none })

/-- A lane with its holds released and out of every owed set, before the free checks. -/
def releasedState (l : RLane) (s : State) : State :=
  ({ s with fpc := { s.fpc with slots := releaseAll l (s.rl.get l).holds s.fpc.slots } } : State).modRl l resetRenditionRecord

/-- A lane that has left its binding and its source's owed sets, before the free checks. -/
def unboundState (l : RLane) (x : Src) (s : State) : State :=
  (s.modRl l (fun r => { r with binding := none, mark := none })).mapSlots
    (fun k => if slotSource k = some x then leaveOwed l k else k)

/-- A lane that has taken the frame of a slot, before the free checks. -/
def claimedState (l : RLane) (b : Binding) (k : Nat) (f : SealedFrame) (s : State) : State :=
  (claimSlots l b.source k f.number s).modRl l (fun r => { r with
    holds := r.holds ++ [⟨k, f.number, b.window⟩], mark := some f.number, pendingClaim := none })

/-- A lane that has given back the hold of a slot, before the free checks. -/
def returnedState (l : RLane) (k : Nat) (s : State) : State :=
  (s.modRl l (fun r => { r with holds := r.holds.filter (fun h => h.slot ≠ k) })).setSlot k (dropHold (s.slot k))

/-- The analysis under way is c, or none is. -/
def withCtx (c : Option AnalysisCtx) (s : State) : State := { s with cd := { s.cd with ctx := c } }

theorem pool_withCtx (c : Option AnalysisCtx) (s : State) : (withCtx c s).pool = { s.pool with ctx := c } := rfl

/-! ### Claims -/

/-- A lane has taken the frame of the analysed slot k, and the slots touched have been examined. -/
def Taken (l : RLane) (b : Binding) (k : Nat) (s t : State) : Prop :=
  ∃ cur f v h o, s.fpc.slots[k]? = some (.analysed cur f v h o) ∧ Settled s.fpc.slots (claimedState l b k f s) t

/-- One of the lanes whose claim waits takes the new CURRENT frame. -/
inductive PendingStep (x : Src) (k : Nat) (s t : State) : Prop
  | same (h : t.pool = s.pool)
  | taken (l : RLane) (b : Binding) (hb : (s.rl.get l).binding = some b) (hx : b.source = x)
      (hp : (s.rl.get l).pendingClaim.isSome = true) (h : Taken l b k s t)

/-! ### The analysis -/

/-- The context c' is c after one more row has been measured (R51, R59 to R63). -/
structure Measured (c c' : AnalysisCtx) : Prop where
  slot : c'.slot = c.slot
  source : c'.source = c.source
  number : c'.number = c.number
  arrival : c'.arrival = c.arrival
  cols : c'.cols = c.cols
  rows : c'.rows = c.rows
  nextRow : c'.nextRow = c.nextRow + 1
  active : c'.active ≤ c.active + c.cols
  changed : c.changed ≤ c.active → c'.changed ≤ c'.active

/-- A verdict in keeping with R63, R65, R66 and R159. -/
def Consistent (v : Verdict) : Prop :=
  (v.cls = .hold → v.mask = 0) ∧
  ((v.flags.first = true ∨ v.flags.cue = true ∨ v.flags.chapter = true) → v.cls = .scene)

/-- The analysis c completes: its frame becomes CURRENT, pending claims are served, the superseded slot is examined, and an idle
detector starts on the next frame; with its slot no longer ANALYSING the analysis just ends. -/
inductive Completed (c : AnalysisCtx) (s t : State) : Prop
  | lost (u : State) (hk : ∀ f, s.slot c.slot ≠ .analysing f) (hu : u.pool = (withCtx none s).pool)
      (h : t.pool = (startAnalysis u).pool)
  | current (f : SealedFrame) (v : Verdict) (a b d u : State) (hk : s.fpc.slots[c.slot]? = some (.analysing f))
      (hv : Consistent v) (hc : v.changed = c.changed) (hn : v.active = c.active)
      (ha : a.pool = (supersede f.source c.slot f v s).pool) (hb : Relation.ReflTransGen (PendingStep f.source c.slot) a b)
      (hd : Aftermath b d) (hj : ∀ j, s.fpc.current.get f.source = some j → j ≠ c.slot → ¬ Unwanted d j)
      (hu : u.pool = (withCtx none d).pool) (h : t.pool = (startAnalysis u).pool)

/-! ### The acts of the commands -/

/-- What may reset a lane. -/
def mayResetLane : Instr → Bool
  | .laneReset _ => true
  | .linkLoss _ => true
  | .recordReceived _ _ => true
  | _ => false

/-- A frame that a lane with this mark may claim, in either wording of the manual (R96, R98, R99). -/
def AboveMark (mark : Option FrameNo) (n : FrameNo) : Prop :=
  ∀ m, mark = some m → frameBelow m n = true ∨ frameAtMost n m = false

/-- What a command does to the pool while RSTN is high. -/
inductive PoolAct (c : Instr) (s t : State) : Prop
  | same (h : t.pool = s.pool)
  | planned (p : Plan) (hp : planValid p s.ms = true) (hq : ∀ x, (p.source.get x).enabled = false → (p.source.get x).quota = 0)
      (hi : poolIdle s = true) (h : t.pool = (takePlan p s).pool)
  | softReset (p : List Byte) (hc : c = .softReset p) (h : t.pool = (softResetPart s).pool)
  | ingestReset (x : Src) (hc : mayResetLane c = true) (h : Aftermath (dropWait x (leaveFrame x s)) t)
  | renditionReset (l : RLane) (hc : mayResetLane c = true) (h : Settled s.fpc.slots (releasedState l s) t)
  | opened (x : Src) (p : Pts) (k : Nat) (ho : (s.il.get x).openFrame = none) (hp : (s.il.get x).pendingOpen = none)
      (hk : Fillable x k s) (h : t.pool = (fillSlot x p k s).pool)
  | waits (x : Src) (tag : Byte) (p : Pts) (due : Stamp) (ho : (s.il.get x).openFrame = none)
      (hp : (s.il.get x).pendingOpen = none) (h : t.pool = (joinWait x tag p due s).pool)
  | waitOver (x : Src) (h : t.pool = (dropWait x s).pool)
  | rowWritten (x : Src) (k : Nat) (ho : (s.il.get x).openFrame = some k) (h : t.pool = (s.setSlot k (addRow (s.slot k))).pool)
  | seals (x : Src) (k : Nat) (y : Src) (p : Pts) (n : Nat) (u : State) (ho : (s.il.get x).openFrame = some k)
      (hk : s.fpc.slots[k]? = some (.filling y p n)) (hu : u.pool = (sealedState x k y p s).pool)
      (h : t.pool = (startAnalysis u).pool)
  | abandoned (x : Src) (k : Nat) (ho : (s.il.get x).openFrame = some k) (h : Aftermath (leaveFrame x s) t)
  | rewindowed (l : RLane) (b : Binding) (v : Window) (hb : (s.rl.get l).binding = some b)
      (h : t.pool = (s.modRl l (fun r => { r with binding := some { source := b.source, window := v } })).pool)
  | bound (l : RLane) (x : Src) (v : Window) (hb : (s.rl.get l).binding = none) (h : t.pool = (bindFresh l x v s).pool)
  | unbound (l : RLane) (b : Binding) (hb : (s.rl.get l).binding = some b) (hh : (s.rl.get l).holds = [])
      (hw : (s.rl.get l).pendingClaim = none) (h : Settled s.fpc.slots (unboundState l b.source s) t)
  | rebound (l : RLane) (b : Binding) (x : Src) (v : Window) (u : State) (hb : (s.rl.get l).binding = some b)
      (hh : (s.rl.get l).holds = []) (hw : (s.rl.get l).pendingClaim = none)
      (hu : Settled s.fpc.slots (unboundState l b.source s) u) (h : t.pool = (bindFresh l x v u).pool)
  | claimed (l : RLane) (b : Binding) (k : Nat) (n : FrameNo) (hb : (s.rl.get l).binding = some b)
      (hw : (s.rl.get l).pendingClaim = none) (hh : (s.rl.get l).holds.length < 2) (hx : slotSource (s.slot k) = some b.source)
      (hn : slotFrame (s.slot k) = some n) (ha : AboveMark (s.rl.get l).mark n) (h : Taken l b k s t)
  | claimWaits (l : RLane) (d : PendingClaim) (hb : (s.rl.get l).binding.isSome = true) (hh : (s.rl.get l).holds.length < 2)
      (h : t.pool = (s.modRl l (fun r => { r with pendingClaim := some d })).pool)
  | claimOver (l : RLane) (h : t.pool = (s.modRl l (fun r => { r with pendingClaim := none })).pool)
  | released (l : RLane) (k : Nat) (e : Hold) (hc : ∃ lane, c = .release lane) (hh : holdOf (s.rl.get l) k = some e)
      (h : Settled s.fpc.slots (returnedState l k s) t)
  | row (c₀ c₁ : AnalysisCtx) (hc : s.cd.ctx = some c₀) (hm : Measured c₀ c₁) (hn : c₁.nextRow < c₁.rows)
      (h : t.pool = (withCtx (some c₁) s).pool)
  | completes (c₀ c₁ : AnalysisCtx) (hc : s.cd.ctx = some c₀) (hm : Measured c₀ c₁) (hn : c₁.rows ≤ c₁.nextRow)
      (h : Completed c₁ (withCtx (some c₁) s) t)

/-- What a command does to the pool: nothing; one of its acts while RSTN is high; the start-up state; or the end of all work at the
fall of RSTN. -/
inductive PoolChange (c : Instr) (s t : State) : Prop
  | same (h : t.pool = s.pool)
  | acts (hr : s.rstnLow = false) (h : PoolAct c s t)
  | startUp (hc : isStartUp c = true) (r : Bool) (h : t.pool = ({ State.reset with rstnLow := r } : State).pool)
  | halted (h : execRstnAsserted s = .next t)

/-! ### The lanes' own operations -/

theorem sealSlot_pool (x : Src) (k : Nat) (y : Src) (p : Pts) (s : State) :
    ∃ u : State, u.pool = (sealedState x k y p s).pool ∧ sealSlot x k y p s = startAnalysis u :=
  ⟨_, by rw [pool_answerHead]; rfl, rfl⟩

/-- An ingest lane with its own work ended, before its slot is given up. -/
def clearedLane (x : Src) (s : State) : State :=
  unlist x ((dropRequests (.il x) s).modIl x (fun r => { r with
    link := resetLink r.link, openFrame := none, pendingOpen := none, rowBuffer := none }))

theorem pool_clearedLane (x : Src) (s : State) : (clearedLane x s).pool = { s.pool with
    waitList := s.pool.waitList.filter (fun w => w.source ≠ x)
    openFrame := Function.update s.pool.openFrame x none
    pendingOpen := Function.update s.pool.pendingOpen x none } := by
  rw [clearedLane, pool_unlist_eq, pool_modIl_eq]
  rfl

theorem resetIngestLane_eq (x : Src) (s : State) : resetIngestLane x s = match (s.il.get x).openFrame with
    | some k => serveWaitList ((clearedLane x s).setSlot k .free)
    | none => clearedLane x s := rfl

theorem pool_dropWait (x : Src) (s : State) : (dropWait x s).pool = { s.pool with
    waitList := s.pool.waitList.filter (fun w => w.source ≠ x)
    pendingOpen := Function.update s.pool.pendingOpen x none } := by
  rw [dropWait, pool_modIl_eq, unlist_il, Function.update_eq_self_iff.mpr]
  · rfl
  · rfl

theorem pool_leaveFrame (x : Src) (s : State) : (leaveFrame x s).pool = { s.pool with
    slots := match s.pool.openFrame x with
      | some k => s.pool.slots.set k .free
      | none => s.pool.slots
    openFrame := Function.update s.pool.openFrame x none } := by
  have hp : s.pool.openFrame x = (s.il.get x).openFrame := rfl
  have hu : Function.update s.pool.pendingOpen x (s.il.get x).pendingOpen = s.pool.pendingOpen :=
    Function.update_eq_self x s.pool.pendingOpen
  cases h : (s.il.get x).openFrame with
  | none =>
    have : Function.update s.pool.openFrame x none = s.pool.openFrame := Function.update_eq_self_iff.mpr (hp.trans h).symm
    simp only [leaveFrame, h, hp, this]
  | some k =>
    simp only [leaveFrame, h, hp, pool_modIl_eq, pool_setSlot_eq, State.setSlot_il, hu]

theorem resetIngestLane_aftermath (x : Src) (s : State) : Aftermath (dropWait x (leaveFrame x s)) (resetIngestLane x s) := by
  have ho : s.pool.openFrame x = (s.il.get x).openFrame := rfl
  rw [resetIngestLane_eq]
  cases h : (s.il.get x).openFrame with
  | none =>
    refine Aftermath.of_pool ?_
    rw [pool_clearedLane, pool_dropWait, pool_leaveFrame, ho, h]
  | some k =>
    refine (Aftermath.of_pool ?_).trans (serveWaitList_aftermath _)
    rw [pool_setSlot_eq, pool_clearedLane, pool_dropWait, pool_leaveFrame, ho, h]

theorem resetRenditionLane_settled (l : RLane) (s : State) :
    Settled s.fpc.slots (releasedState l s) (resetRenditionLane l s) := by
  refine (settle_settled _ _).congr ?_ rfl
  simp only [releasedState, pool_fpc_eq, pool_modRl_eq]
  rfl

theorem takeFrame_taken (l : RLane) (b : Binding) (k : Nat) (s : State) :
    takeFrame l b k s = s ∨ Taken l b k s (takeFrame l b k s) := by
  unfold takeFrame
  split
  · next cur f v h o hk =>
    refine .inr ⟨cur, f, v, h, o, getElem?_of_slot hk (by simp), (settle_settled _ _).congr ?_ (pool_answerHead ..)⟩
    simp only [claimedState, pool_modRl_eq]
  · exact .inl rfl

theorem leaveSource_settled (l : RLane) (x : Src) (s : State) :
    Settled s.fpc.slots (unboundState l x s)
      (leaveSource l x (s.modRl l (fun r => { r with binding := none, mark := none }))) :=
  settle_settled _ _

theorem abandonBody_aftermath (x : Src) (r : Request) (s : State) :
    (abandonBody x r s).pool = s.pool ∨
    ∃ k, (s.il.get x).openFrame = some k ∧ Aftermath (leaveFrame x s) (abandonBody x r s) := by
  unfold abandonBody
  split
  · exact .inl (pool_answerHead ..)
  · split
    · exact .inl (pool_answerHead ..)
    · next k hk =>
      refine .inr ⟨k, hk, (Aftermath.of_pool ?_).trans (serveWaitList_aftermath _)⟩
      simp only [pool_answerHead, leaveFrame, hk]

/-! ### The ingest lanes -/

theorem not_busy_il {s : State} {x : Src} {r : Request} (h : readyHead s (.il x) = some r) : (s.il.get x).pendingOpen = none := by
  have := (readyHead_eq_some.mp h).1
  simp only [laneBusy, Bool.or_eq_false_iff, Option.isSome_eq_false_iff, Option.isNone_iff_eq_none] at this
  exact this.1

theorem not_busy_rl {s : State} {l : RLane} {r : Request} (h : readyHead s (.rl l) = some r) :
    (s.rl.get l).pendingClaim = none := by
  have := (readyHead_eq_some.mp h).1
  simp only [laneBusy, Bool.or_eq_false_iff, Option.isSome_eq_false_iff, Option.isNone_iff_eq_none] at this
  exact this.1

theorem openBody_act (c : Instr) {x : Src} {r : Request} {s : State} (hr : readyHead s (.il x) = some r) :
    PoolAct c s (openBody x r s) := by
  unfold openBody
  split
  · exact .same (pool_answerHead ..)
  · split
    · exact .same (pool_answerHead ..)
    · split
      · exact .same (pool_answerHead ..)
      · next ho =>
        have ho : (s.il.get x).openFrame = none := by simpa using ho
        dsimp only
        split
        · next c hc => exact .opened x _ c.slot ho (not_busy_il hr) (openChoice_fillable hc) (pool_serveOpen ..)
        · unfold waitOrDrop
          dsimp only
          split
          · exact .same (by simp)
          · exact .waits x r.tag _ _ ho (not_busy_il hr) rfl

theorem putBody_pool (x : Src) (r : Request) (s : State) : (putBody x r s).pool = s.pool := by
  unfold putBody
  split
  · exact pool_answerHead ..
  · split
    · exact pool_answerHead ..
    · dsimp only
      split
      · exact pool_answerHead ..
      · split
        · exact pool_answerHead ..
        · rw [pool_placeRequest, pool_modIl _ _ _ rfl rfl]

theorem sealBody_act (c : Instr) (x : Src) (r : Request) (s : State) : PoolAct c s (sealBody x r s) := by
  unfold sealBody
  split
  · exact .same (pool_answerHead ..)
  · split
    · exact .same (pool_answerHead ..)
    · next k ho =>
      split
      · next y p n hk =>
        split
        · exact .same (pool_answerHead ..)
        · obtain ⟨u, hu, e⟩ := sealSlot_pool x k y p s
          exact .seals x k y p n u ho (getElem?_of_slot hk (by simp)) hu (by rw [e])
      · exact .same (pool_answerHead ..)

theorem finishRow_act (c : Instr) (x : Src) (s : State) : PoolAct c s (finishRow x s) := by
  unfold finishRow
  split
  · exact .same rfl
  · next k ho =>
    refine .rowWritten x k ho ?_
    rw [pool_answerHead, pool_modIl _ _ _ rfl rfl]

/-! ### The rendition lanes -/

theorem applyBind_act (c : Instr) {l : RLane} (x : Src) (v : Window) {s : State} (hw : (s.rl.get l).pendingClaim = none)
    (hh : s.boundTo l (otherSrc x) = true → (s.rl.get l).holds = []) : PoolAct c s (applyBind l x v s) := by
  unfold applyBind
  split
  · next hb => exact .bound l x v hb rfl
  · next b hb =>
    split
    · next hx => subst hx; exact .rewindowed l b v hb rfl
    · next hx =>
      refine .rebound l b x v _ hb (hh ?_) hw (leaveSource_settled ..) rfl
      simp only [State.boundTo, hb, decide_eq_true_eq]
      cases hs : b.source <;> cases x <;> first | rfl | exact absurd hs hx

theorem PoolAct.of_pool {c : Instr} {s t t' : State} (h : PoolAct c s t) (ht : t'.pool = t.pool) : PoolAct c s t' := by
  cases h with
  | same h => exact .same (ht.trans h)
  | planned p hp hq hi h => exact .planned p hp hq hi (ht.trans h)
  | softReset p hc h => exact .softReset p hc (ht.trans h)
  | ingestReset x hc h => exact .ingestReset x hc (h.trans (Aftermath.of_pool ht))
  | renditionReset l hc h => exact .renditionReset l hc (h.congr rfl ht)
  | opened x p k ho hp hk h => exact .opened x p k ho hp hk (ht.trans h)
  | waits x tag p due ho hp h => exact .waits x tag p due ho hp (ht.trans h)
  | waitOver x h => exact .waitOver x (ht.trans h)
  | rowWritten x k ho h => exact .rowWritten x k ho (ht.trans h)
  | seals x k y p n u ho hk hu h => exact .seals x k y p n u ho hk hu (ht.trans h)
  | abandoned x k ho h => exact .abandoned x k ho (h.trans (Aftermath.of_pool ht))
  | rewindowed l b v hb h => exact .rewindowed l b v hb (ht.trans h)
  | bound l x v hb h => exact .bound l x v hb (ht.trans h)
  | unbound l b hb hh hw h => exact .unbound l b hb hh hw (h.congr rfl ht)
  | rebound l b x v u hb hh hw hu h => exact .rebound l b x v u hb hh hw hu (ht.trans h)
  | claimed l b k n hb hw hh hx hn ha h =>
    obtain ⟨cur, f, v, h, o, hk, hs⟩ := h
    exact .claimed l b k n hb hw hh hx hn ha ⟨cur, f, v, h, o, hk, hs.congr rfl ht⟩
  | claimWaits l d hb hh h => exact .claimWaits l d hb hh (ht.trans h)
  | claimOver l h => exact .claimOver l (ht.trans h)
  | released l k e hc hh h => exact .released l k e hc hh (h.congr rfl ht)
  | row c₀ c₁ hc hm hn h => exact .row c₀ c₁ hc hm hn (ht.trans h)
  | completes c₀ c₁ hc hm hn h =>
    refine .completes c₀ c₁ hc hm hn ?_
    cases h with
    | lost u hk hu h => exact .lost u hk hu (ht.trans h)
    | current f v a b d u hk hv hc hn ha hb hd hj hu h => exact .current f v a b d u hk hv hc hn ha hb hd hj hu (ht.trans h)

theorem bindBody_act (c : Instr) {l : RLane} {r : Request} {s : State} (hr : readyHead s (.rl l) = some r) :
    PoolAct c s (bindBody l r s) := by
  unfold bindBody
  split
  · exact .same (pool_answerHead ..)
  · split
    · exact .same (pool_answerHead ..)
    · dsimp only
      split
      · exact .same (pool_answerHead ..)
      · split
        · exact .same (pool_answerHead ..)
        · split
          · exact .same (pool_answerHead ..)
          · next x _ _ _ hb =>
            refine (applyBind_act c x _ (not_busy_rl hr) (fun h => ?_)).of_pool (pool_answerHead ..)
            simpa [h] using hb

theorem unbindBody_act (c : Instr) {l : RLane} {r : Request} {s : State} (hr : readyHead s (.rl l) = some r) :
    PoolAct c s (unbindBody l r s) := by
  unfold unbindBody
  split
  · exact .same (pool_answerHead ..)
  · split
    · exact .same (pool_answerHead ..)
    · next b hb =>
      split
      · exact .same (pool_answerHead ..)
      · next hh =>
        refine PoolAct.of_pool (.unbound l b hb ?_ (not_busy_rl hr) (leaveSource_settled ..)) (pool_answerHead ..)
        simpa using hh

/-- A claim whose common checks passed goes on with its own checks; otherwise it changes nothing of the pool. -/
theorem claimChecked_act (c : Instr) {l : RLane} {r : Request} {s : State} (body : Binding → State → State)
    (h : ∀ b, (s.rl.get l).binding = some b → (s.rl.get l).holds.length < 2 → PoolAct c s (body b s)) :
    PoolAct c s (claimChecked l r body s) := by
  unfold claimChecked
  split
  · exact .same (pool_answerHead ..)
  · split
    · exact .same (pool_answerHead ..)
    · split
      · exact .same (pool_answerHead ..)
      · next b hb =>
        split
        · exact .same (pool_answerHead ..)
        · next hl => exact h b hb (by simpa [Config.holdDepth] using hl)

theorem claimable_eq_true {x : Src} {mark : Option FrameNo} {k : Slot} (h : claimable x mark k = true) :
    slotSource k = some x ∧ ∃ n, slotFrame k = some n ∧ AboveMark mark n := by
  unfold claimable at h
  split at h
  · next f _ _ _ =>
    simp only [Bool.and_eq_true, decide_eq_true_eq] at h
    refine ⟨by simp [slotSource, h.1], f.number, rfl, ?_⟩
    rintro m rfl
    exact .inl h.2
  · cases h

theorem takeFrame_act (c : Instr) {l : RLane} {b : Binding} {k : Nat} {n : FrameNo} {s : State}
    (hw : (s.rl.get l).pendingClaim = none) (hb : (s.rl.get l).binding = some b) (hh : (s.rl.get l).holds.length < 2)
    (hx : slotSource (s.slot k) = some b.source) (hn : slotFrame (s.slot k) = some n) (ha : AboveMark (s.rl.get l).mark n) :
    PoolAct c s (takeFrame l b k s) := by
  rcases takeFrame_taken l b k s with h | h
  · exact .same (by rw [h])
  · exact .claimed l b k n hb hw hh hx hn ha h

theorem nextBody_act (c : Instr) {l : RLane} {tag : Byte} {b : Binding} {s : State} (hw : (s.rl.get l).pendingClaim = none)
    (hb : (s.rl.get l).binding = some b) (hh : (s.rl.get l).holds.length < 2) : PoolAct c s (nextBody l tag b s) := by
  unfold nextBody
  split
  · next k hk =>
    rw [lowestFrame_eq, Option.map_eq_some_iff] at hk
    obtain ⟨⟨j, n⟩, hk, rfl⟩ := hk
    obtain ⟨d, hd, hp, -⟩ := lowestOf_mem hk
    obtain ⟨hx, m, hm, ha⟩ := claimable_eq_true hp
    have hs := slot_of_getElem? hd
    exact takeFrame_act c hw hb hh (by rw [hs]; exact hx) (by rw [hs]; exact hm) ha
  · unfold waitClaim
    dsimp only
    split
    · exact .same (pool_answerHead ..)
    · exact .claimWaits l _ (by rw [hb]; rfl) hh rfl

theorem latestBody_act (c : Instr) {l : RLane} {b : Binding} {s : State} (hw : (s.rl.get l).pendingClaim = none)
    (hb : (s.rl.get l).binding = some b) (hh : (s.rl.get l).holds.length < 2) : PoolAct c s (latestBody l b s) := by
  unfold latestBody
  split
  · exact .same (pool_answerHead ..)
  · split
    · next hk =>
      obtain ⟨hx, n, hn, ha⟩ := claimable_eq_true hk
      exact takeFrame_act c hw hb hh hx hn ha
    · exact .same (pool_answerHead ..)

theorem slotOfFrame_eq_some {x : Src} {n : FrameNo} {slots : List Slot} {k : Nat} (h : slotOfFrame x n slots = some k) :
    ∃ d, slots[k]? = some d ∧ slotSource d = some x ∧ slotFrame d = some n := by
  obtain ⟨hk, hp, -⟩ := List.findIdx?_eq_some_iff_getElem.mp h
  simp only [Bool.and_eq_true, decide_eq_true_eq] at hp
  exact ⟨_, List.getElem?_eq_getElem hk, hp⟩

theorem numberBody_act (c : Instr) {l : RLane} {n : FrameNo} {b : Binding} {s : State} (hw : (s.rl.get l).pendingClaim = none)
    (hb : (s.rl.get l).binding = some b) (hh : (s.rl.get l).holds.length < 2) : PoolAct c s (numberBody l n b s) := by
  unfold numberBody
  split
  · exact .same (pool_answerHead ..)
  · next hm =>
    split
    · exact .same (pool_answerHead ..)
    · split
      · exact .same (pool_answerHead ..)
      · next k hk =>
        obtain ⟨d, hd, hx, hn⟩ := slotOfFrame_eq_some hk
        have hs := slot_of_getElem? hd
        have ha : AboveMark (s.rl.get l).mark n := fun m he => .inr (by simpa [atOrBelowMark, he] using hm)
        split
        · exact takeFrame_act c hw hb hh (by rw [hs]; exact hx) (by rw [hs]; exact hn) ha
        · exact .same (pool_answerHead ..)

theorem releaseBody_act (c : Instr) (hc : ∃ lane, c = .release lane) (l : RLane) (r : Request) (s : State) :
    PoolAct c s (releaseBody l r s) := by
  unfold releaseBody
  split
  · exact .same (pool_answerHead ..)
  · dsimp only
    split
    · exact .same (pool_answerHead ..)
    · next e he =>
      exact .released l _ e hc he ((settle_settled _ _).congr rfl (pool_answerHead ..))

theorem maskChecked_pool (l : RLane) (r : Request) (mask : Nat → State → TileSet) (s : State) :
    (maskChecked l r mask s).pool = s.pool := by
  unfold maskChecked
  split
  · exact pool_answerHead ..
  · dsimp only
    split
    · exact pool_answerHead ..
    · split <;> exact pool_answerHead ..

theorem fetchBody_pool (l : RLane) (r : Request) (s : State) : (fetchBody l r s).pool = s.pool := by
  unfold fetchBody
  split
  · exact pool_answerHead ..
  · split
    · exact pool_answerHead ..
    · dsimp only
      split
      · exact pool_answerHead ..
      · split
        · rw [pool_placeRequest, pool_modRl _ _ _ rfl rfl rfl rfl]
        · exact pool_modRl _ _ _ rfl rfl rfl rfl

theorem subscribeBody_pool (l : RLane) (r : Request) (s : State) : (subscribeBody l r s).pool = s.pool := by
  rw [subscribeBody, pool_answerHead, pool_modRl _ _ _ rfl rfl rfl rfl]

end Sys2Proof.Machine
end

section
/-! SUPPORT. What a detector row and the completion of an analysis do to the part of the state that the laws of the pool speak of. -/

namespace Sys2Proof.Machine

open Sys2Proof Sys2Proof.Claims

/-! ### Measuring a row -/

/-- What measuring the tiles of a row up to a column keeps and counts. -/
structure Counted (n : Nat) (c c' : AnalysisCtx) : Prop where
  slot : c'.slot = c.slot
  source : c'.source = c.source
  number : c'.number = c.number
  arrival : c'.arrival = c.arrival
  cols : c'.cols = c.cols
  rows : c'.rows = c.rows
  active : c'.active ≤ c.active + n
  changed : c.changed ≤ c.active → c'.changed ≤ c'.active

theorem bit_le_one (b : Bool) : bit b ≤ 1 := by cases b <;> simp [bit]

theorem tileStep_counted (means : List Byte) (t : Nat) (c : AnalysisCtx) (old : TileRec) :
    Counted 1 c (tileStep means t c old).2 := by
  constructor <;> try rfl
  · exact Nat.add_le_add_left (bit_le_one _) _
  · intro h
    simp only [tileStep]
    cases c.excluded.getLsbD t with
    | true => simpa [bit] using h
    | false =>
      have := bit_le_one (measureTile c.settings c.number means old).2
      simp only [Bool.not_false, if_true, bit] at this ⊢
      omega

theorem Counted.trans {m n : Nat} {a b c : AnalysisCtx} (h : Counted m a b) (g : Counted n b c) : Counted (m + n) a c where
  slot := g.slot.trans h.slot
  source := g.source.trans h.source
  number := g.number.trans h.number
  arrival := g.arrival.trans h.arrival
  cols := g.cols.trans h.cols
  rows := g.rows.trans h.rows
  active := by have := h.active; have := g.active; omega
  changed := fun hc => g.changed (h.changed hc)

/-- One column of a row's measuring. -/
def measureColumn (mem : List Host.Cell) (base r cols : Nat) (p : List TileRec × AnalysisCtx) (col : Nat) :
    List TileRec × AnalysisCtx :=
  let t := r * cols + col
  let q := tileStep (tileMeans mem base cols r col) t p.2 (p.1.getD t TileRec.reset)
  (p.1.set t q.1, q.2)

theorem measureRow_eq (mem : List Host.Cell) (base r : Nat) (tiles : List TileRec) (c : AnalysisCtx) :
    measureRow mem base r tiles c = (List.range c.cols).foldl (measureColumn mem base r c.cols) (tiles, c) := rfl

theorem measureColumns_counted (mem : List Host.Cell) (base r cols : Nat) (tiles : List TileRec) (c : AnalysisCtx) (n : Nat) :
    Counted n c ((List.range n).foldl (measureColumn mem base r cols) (tiles, c)).2 := by
  induction n with
  | zero => exact ⟨rfl, rfl, rfl, rfl, rfl, rfl, Nat.le_refl _, id⟩
  | succ n ih =>
    rw [List.range_succ, List.foldl_append]
    exact ih.trans (tileStep_counted ..)

theorem measureRow_counted (mem : List Host.Cell) (base r : Nat) (tiles : List TileRec) (c : AnalysisCtx) :
    Counted c.cols c (measureRow mem base r tiles c).2 :=
  measureColumns_counted ..

/-! ### The verdict -/

theorem chapterDecision_scene {u : ChapterUnit} {cls : FrameClass} {flags : FrameFlags} {n : FrameNo}
    (h : (chapterDecision u cls flags n).isSome = true) : cls = .scene := by
  unfold chapterDecision at h
  split at h
  · cases h
  · next hc => exact (by simpa using hc : u.enabled = true ∧ cls = .scene).2

theorem baseClass_hold {first : Bool} {changed active percent : Nat} {mask : TileSet}
    (h : baseClass first changed active percent mask = .hold) : mask = 0 := by
  unfold baseClass at h
  split at h
  · cases h
  · split at h
    · assumption
    · cases h

theorem baseClass_first (changed active percent : Nat) (mask : TileSet) :
    baseClass true changed active percent mask = .scene := rfl

/-! ### The completion -/

theorem servePendingClaims_steps (x : Src) (k : Nat) (s : State) :
    Relation.ReflTransGen (PendingStep x k) s (servePendingClaims x k s) := by
  refine foldl_inv (Relation.ReflTransGen (PendingStep x k) s) _ (fun t l ht => ?_) _ _ .refl
  split
  · next b p hb hp =>
    split
    · next hx =>
      rcases takeFrame_taken l b k t with h | h
      · rw [h]; exact ht
      · exact ht.tail (.taken l b hb hx (by rw [hp]; rfl) h)
    · exact ht
  · exact ht

/-- The slots once the CURRENT frame of a source has been superseded (R11 step 1). -/
def staleSlots (x : Src) (s : State) : List Slot :=
  match s.fpc.current.get x with
  | some j =>
    match s.slot j with
    | .analysed _ f v h o => s.fpc.slots.set j (.analysed false f v h o)
    | _ => s.fpc.slots
  | none => s.fpc.slots

/-- The lanes bound to a source (R11 step 3). -/
def boundSet (x : Src) (s : State) : PerRL Bool := ⟨s.boundTo .r0 x, s.boundTo .r1 x, s.boundTo .r2 x, s.boundTo .r3 x⟩

@[simp] theorem boundSet_get (x : Src) (s : State) (l : RLane) : (boundSet x s).get l = s.boundTo l x := by
  cases l <;> rfl

theorem supersede_eq (x : Src) (k : Nat) (f : SealedFrame) (v : Verdict) (s : State) :
    supersede x k f v s = { s with fpc := { s.fpc with
      slots := (staleSlots x s).set k (.analysed true f v 0 (boundSet x s))
      current := s.fpc.current.set x (some k) } } := by
  cases hc : s.fpc.current.get x with
  | none => simp only [supersede, staleSlots, hc]; rfl
  | some j => cases hs : s.slot j <;> (simp only [supersede, staleSlots, hc, hs]; rfl)

theorem staleSlots_congr {x : Src} {s t : State} (h : t.pool = s.pool) : staleSlots x t = staleSlots x s := by
  simp only [staleSlots, pool_slots h, pool_current h, pool_slot h]

theorem boundSet_congr {x : Src} {s t : State} (h : t.pool = s.pool) : boundSet x t = boundSet x s := by
  simp only [boundSet, pool_boundTo h]

theorem supersede_pool_congr {x : Src} {k : Nat} {f : SealedFrame} {v : Verdict} {s t : State} (h : t.pool = s.pool) :
    (supersede x k f v t).pool = (supersede x k f v s).pool := by
  simp only [supersede_eq, pool_fpc_eq, staleSlots_congr h, boundSet_congr h, pool_current h, pool_nextFrame h,
    pool_plan h, pool_waitList h, h]

/-- The chapter decision on a frame that completes. -/
def decision (f : SealedFrame) (v : Verdict) (s : State) : Option ChapterReason :=
  chapterDecision (s.clr.chapters.get f.source) v.cls v.flags f.number

/-- The verdict with its chapter flag (R159). -/
def chaptered (f : SealedFrame) (v : Verdict) (s : State) : Verdict :=
  { v with flags := { v.flags with chapter := (decision f v s).isSome } }

theorem verdictOf_changed (c : AnalysisCtx) (first : Bool) (window : Nat) (cues : List CueRec) :
    (verdictOf c first window cues).1.changed = c.changed := rfl

theorem verdictOf_active (c : AnalysisCtx) (first : Bool) (window : Nat) (cues : List CueRec) :
    (verdictOf c first window cues).1.active = c.active := rfl

/-- The class is HOLD only with an empty mask, and SCENE with the FIRST or CUE flag (R65, R69). -/
theorem verdictOf_cls (c : AnalysisCtx) (first : Bool) (window : Nat) (cues : List CueRec) :
    let v := (verdictOf c first window cues).1
    (v.cls = .hold → v.mask = 0) ∧ (v.flags.first = true ∨ v.flags.cue = true → v.cls = .scene) := by
  simp only [verdictOf]
  generalize (examineCues c.source c.arrival (baseClass first c.changed c.active c.settings.percent c.mask) window cues).2.1 = cue
  cases cue with
  | true => simp
  | false =>
    refine ⟨baseClass_hold, ?_⟩
    rintro (rfl | h)
    · rfl
    · cases h

/-- The verdict of an analysis, with the chapter flag that the decision gives it, is consistent. -/
theorem chaptered_consistent (c : AnalysisCtx) (first : Bool) (window : Nat) (cues : List CueRec) (f : SealedFrame) (s : State) :
    Consistent (chaptered f (verdictOf c first window cues).1 s) := by
  obtain ⟨hhold, hscene⟩ := verdictOf_cls c first window cues
  generalize (verdictOf c first window cues).1 = v at hhold hscene
  refine ⟨hhold, ?_⟩
  rintro (h | h | h)
  · exact hscene (.inl h)
  · exact hscene (.inr h)
  · exact chapterDecision_scene h

/-- The new CURRENT frame with its chapter and its READY notices (R11 steps 1 to 5). -/
def announced (k : Nat) (f : SealedFrame) (v : Verdict) (s : State) : State :=
  let a := supersede f.source k f (chaptered f v s) s
  sendReady k (match decision f v s with
    | some r => { a with clr := recordChapter a.clr f v.changed v.active r }
    | none => a)

/-- The SCENE and CHAPTER events of a frame (R159). -/
def raised (f : SealedFrame) (v : Verdict) (why : Option ChapterReason) (s : State) : State :=
  let s := if v.cls = .scene then fireEvent ⟨.scene, some f.source, some f.number⟩ s else s
  if why.isSome then fireEvent ⟨.chapter, some f.source, some f.number⟩ s else s

theorem completeFrame_eq (k : Nat) (f : SealedFrame) (v : Verdict) (s : State) :
    completeFrame k f v s =
      let b := servePendingClaims f.source k (raised f v (decision f v s) (announced k f v s))
      match s.fpc.current.get f.source with
      | some j => if j = k then b else examineSlot (s.slot j) j b
      | none => b := by
  unfold completeFrame
  dsimp only
  cases s.fpc.current.get f.source <;> rfl

@[simp] theorem pool_raised (f : SealedFrame) (v : Verdict) (why : Option ChapterReason) (s : State) :
    (raised f v why s).pool = s.pool := by
  unfold raised
  dsimp only
  split <;> split <;> simp

theorem pool_announced (k : Nat) (f : SealedFrame) (v : Verdict) (s : State) :
    (announced k f v s).pool = (supersede f.source k f (chaptered f v s) s).pool := by
  unfold announced
  dsimp only
  rw [pool_sendReady]
  split <;> rfl

theorem completeFrame_aftermath (k : Nat) (f : SealedFrame) (v : Verdict) (s : State) :
    Aftermath (servePendingClaims f.source k (raised f v (decision f v s) (announced k f v s))) (completeFrame k f v s) := by
  rw [completeFrame_eq]
  dsimp only
  split
  · split
    · exact .refl
    · exact examineSlot_aftermath ..
  · exact .refl

theorem completeFrame_examined (k : Nat) (f : SealedFrame) (v : Verdict) (s : State) (j : Nat)
    (hj : s.fpc.current.get f.source = some j) (hne : j ≠ k) : ¬ Unwanted (completeFrame k f v s) j := by
  rw [completeFrame_eq]
  simp only [hj, hne, if_false]
  exact examineSlot_not_unwanted _ _ _

/-- The state that a completing analysis hands to the Frame Pool Controller: the cues, the misses, the first flag and the marks. -/
def analysed (c : AnalysisCtx) (s : State) : State :=
  let x := c.source
  let e := verdictOf c (s.cd.first.get x) s.tcu.cueSettings.window s.tcu.cues
  let s : State := { s with tcu := { s.tcu with cues := e.2.1 } }
  let s := s.modCounters x (fun n => { n with cueMisses := satAdd n.cueMisses e.2.2 })
  { s with cd := { s.cd with
    first := s.cd.first.set x false
    marks := s.cd.marks.set x (s.cd.marks.get x &&& ~~~(c.marked &&& ~~~(s.cd.laterWrites.get x))) } }

theorem pool_analysed (c : AnalysisCtx) (s : State) : (analysed c s).pool = s.pool := rfl

theorem completeAnalysis_eq (c : AnalysisCtx) (s : State) :
    completeAnalysis c s = startAnalysis (withCtx none (match s.slot c.slot with
      | .analysing f =>
        completeFrame c.slot f (verdictOf c (s.cd.first.get c.source) s.tcu.cueSettings.window s.tcu.cues).1 (analysed c s)
      | _ => analysed c s)) := rfl

theorem completeFrame_completed {c : AnalysisCtx} {f : SealedFrame} {v : Verdict} {s t : State}
    (hk : s.fpc.slots[c.slot]? = some (.analysing f)) (ht : t.pool = s.pool) (hv : Consistent (chaptered f v t))
    (hc : v.changed = c.changed) (hn : v.active = c.active) :
    Completed c s (startAnalysis (withCtx none (completeFrame c.slot f v t))) := by
  refine .current f (chaptered f v t) (raised f v (decision f v t) (announced c.slot f v t))
    (servePendingClaims f.source c.slot (raised f v (decision f v t) (announced c.slot f v t)))
    (completeFrame c.slot f v t) _ hk hv hc hn ?_ (servePendingClaims_steps ..) (completeFrame_aftermath ..) ?_ rfl rfl
  · rw [pool_raised, pool_announced, supersede_pool_congr ht]
  · exact fun j hj => completeFrame_examined _ _ _ _ j (pool_current ht ▸ hj)

theorem completeAnalysis_completed (c : AnalysisCtx) (s : State) : Completed c s (completeAnalysis c s) := by
  rw [completeAnalysis_eq]
  split
  · next f hk =>
    have hk := getElem?_of_slot hk Slot.noConfusion
    exact completeFrame_completed hk (pool_analysed c s)
      (chaptered_consistent ..) (verdictOf_changed ..) (verdictOf_active ..)
  · next hk =>
    exact .lost (withCtx none (analysed c s)) (fun f hf => hk f hf) (by rw [pool_withCtx, pool_withCtx, pool_analysed]) rfl

/-- A completion speaks of the pool's part alone. -/
theorem Completed.congr {c : AnalysisCtx} {s s' t : State} (hc : Completed c s t) (h : s'.pool = s.pool) : Completed c s' t := by
  have hw : (withCtx none s').pool = (withCtx none s).pool := by rw [pool_withCtx, pool_withCtx, h]
  cases hc with
  | lost u hk hu ht => exact .lost u (fun f hf => hk f (pool_slot h _ ▸ hf)) (hu.trans hw.symm) ht
  | current f v a b d u hk hv hc hn ha hb hd hj hu ht =>
    exact .current f v a b d u (pool_slots h ▸ hk) hv hc hn (ha.trans (supersede_pool_congr h).symm) hb hd
      (fun j hc => hj j (pool_current h ▸ hc)) hu ht

theorem rowStep_act (i : Instr) {c : AnalysisCtx} {s : State} (hc : s.cd.ctx = some c) : PoolAct i s (rowStep c s) := by
  have hq := measureRow_counted s.mem (s.rowPlace c.slot c.cols 0) c.nextRow (s.cd.tiles.get c.source) c
  unfold rowStep
  generalize measureRow s.mem (s.rowPlace c.slot c.cols 0) c.nextRow (s.cd.tiles.get c.source) c = q at hq
  have hm : Measured c { q.2 with nextRow := c.nextRow + 1 } :=
    { slot := hq.slot, source := hq.source, number := hq.number, arrival := hq.arrival, cols := hq.cols, rows := hq.rows,
      nextRow := rfl, active := hq.active, changed := hq.changed }
  dsimp only
  split
  · next hn => exact .row c _ hc hm hn (pool_placeRequest ..)
  · next hn =>
    exact .completes c _ hc hm (Nat.le_of_not_lt hn) ((completeAnalysis_completed ..).congr rfl)

end Sys2Proof.Machine
end

section
/-! SUPPORT. Every command, and every step, is one of the changes of the pool. -/

namespace Sys2Proof.Machine

open Sys2Proof Sys2Proof.Claims

/-! ### Management commands -/

/-- The flag of a lane's reset stands in the reset cause record. -/
def flagged (lane : Lane) (s : State) : State := { s with mlu := { s.mlu with cause := s.mlu.cause ||| causeLane lane } }

theorem resetLane_act {c : Instr} (hc : mayResetLane c = true) (lane : Lane) (s : State) : PoolAct c s (resetLane lane s) := by
  cases lane with
  | il x =>
    refine .ingestReset x hc (Relation.ReflTransGen.trans (Aftermath.of_pool ?_) (resetIngestLane_aftermath x (flagged (.il x) s)))
    rw [pool_dropWait, pool_dropWait, pool_leaveFrame, pool_leaveFrame]
    rfl
  | rl l =>
    have h := resetRenditionLane_settled l (flagged (.rl l) s)
    refine .renditionReset l hc (h.congr ?_ rfl)
    rw [releasedState, releasedState, pool_modRl_eq, pool_modRl_eq]
    rfl

theorem ofLength_cases (len : Nat) (p : List Byte) (r : Reply) (s : State) :
    ofLength len p r s = r ∨ ofLength len p r s = refuse .badArg s := by
  unfold ofLength
  split
  · exact .inl rfl
  · exact .inr rfl

theorem pool_ofLength {len : Nat} {p : List Byte} {r : Reply} {s : State} (h : r.state.pool = s.pool) :
    (ofLength len p r s).state.pool = s.pool := by
  rcases ofLength_cases len p r s with e | e <;> rw [e]
  · exact h
  · rfl

theorem pool_replySetDetect (p : List Byte) (s : State) : (replySetDetect p s).state.pool = s.pool := by
  unfold replySetDetect; split <;> rfl

theorem pool_replySetSchedule (p : List Byte) (s : State) : (replySetSchedule p s).state.pool = s.pool := by
  unfold replySetSchedule
  split
  · rfl
  · dsimp only; split <;> rfl

theorem pool_replySetRoute (p : List Byte) (s : State) : (replySetRoute p s).state.pool = s.pool := by
  unfold replySetRoute; split <;> rfl

theorem pool_replySetCue (p : List Byte) (s : State) : (replySetCue p s).state.pool = s.pool := by
  unfold replySetCue; split <;> rfl

theorem pool_replySetCadence (p : List Byte) (s : State) : (replySetCadence p s).state.pool = s.pool := by
  unfold replySetCadence; split <;> rfl

theorem pool_replySetChapters (p : List Byte) (s : State) : (replySetChapters p s).state.pool = s.pool := by
  unfold replySetChapters; split <;> rfl

theorem pool_replySetLaneLimits (p : List Byte) (s : State) : (replySetLaneLimits p s).state.pool = s.pool := by
  have il : ∀ (x : Src) (n : Nat) (u : State), (u.modIl x (fun r => { r with openLimit := n })).pool = u.pool :=
    fun x n u => pool_modIl u x _ rfl rfl
  have rl : ∀ (l : RLane) (n : Nat) (u : State), (u.modRl l (fun r => { r with claimLimit := n })).pool = u.pool :=
    fun l n u => pool_modRl u l _ rfl rfl rfl rfl
  have low : ∀ (n : Nat) (u : State), ({ u with fpc := { u.fpc with poolLow := n } } : State).pool = u.pool := fun _ _ => rfl
  simp only [replySetLaneLimits, done, low, rl, il]

theorem pool_writeAttr (x : Src) (v : Attr) (t : Nat) (s : State) : (writeAttr x v t s).pool = s.pool := by
  unfold writeAttr
  dsimp only
  split
  · rfl
  · split <;> rfl

theorem pool_replyAttrWrite (p : List Byte) (s : State) : (replyAttrWrite p s).state.pool = s.pool := by
  unfold replyAttrWrite
  split
  · exact foldl_keep State.pool _ (fun u i => pool_writeAttr _ _ _ u) _ _
  · rfl

theorem pool_replyAttrRead (p : List Byte) (s : State) : (replyAttrRead p s).state.pool = s.pool := by
  unfold replyAttrRead; split <;> rfl

theorem markBadges_keeps {α : Type} (g : Detector → α) (h : ∀ x t d, g (markTile x t d) = g d) (s : State) (d : Detector) :
    g (markBadges s d) = g d := by
  unfold markBadges
  refine foldl_keep g _ (fun d x => ?_) _ _
  split
  · exact foldl_keep g _ (fun d t => by split <;> simp [h]) _ _
  · rfl

theorem pool_replyBadgeWrite (p : List Byte) (s : State) : (replyBadgeWrite p s).state.pool = s.pool := by
  have hq := markBadges_keeps Detector.queue (fun _ _ _ => rfl) s s.cd
  have hc := markBadges_keeps Detector.ctx (fun _ _ _ => rfl) s s.cd
  simp only [replyBadgeWrite, done]
  split
  · rfl
  · simp only [State.pool, hq, hc]

theorem pool_clearCounters (s : State) : (clearCounters s).pool = s.pool := by
  simp [clearCounters, State.pool]

theorem pool_replyReadCounters (p : List Byte) (s : State) : (replyReadCounters p s).state.pool = s.pool := by
  simp only [replyReadCounters, done]
  split
  · exact pool_clearCounters s
  · rfl

theorem replySetPlan_act (c : Instr) (p : List Byte) (s : State) : PoolAct c s (replySetPlan p s).state := by
  simp only [replySetPlan]
  split
  · exact .same rfl
  · next hp =>
    split
    · exact .same rfl
    · next hi =>
      refine .planned (planOf p) (by simpa using hp) (fun x hx => ?_) (by simpa using hi) rfl
      cases x <;> simp only [planOf, sourcePlanOf, PerSource.get] at hx ⊢ <;> rw [hx] <;> rfl

theorem replyLaneReset_act {c : Instr} (hc : mayResetLane c = true) (p : List Byte) (s : State) :
    PoolAct c s (replyLaneReset p s).state := by
  unfold replyLaneReset
  split
  · exact .same rfl
  · exact resetLane_act hc _ s

theorem PoolAct.ofLength {c : Instr} {len : Nat} {p : List Byte} {r : Reply} {s : State} (h : PoolAct c s r.state) :
    PoolAct c s (Machine.ofLength len p r s).state := by
  rcases ofLength_cases len p r s with e | e <;> rw [e]
  · exact h
  · exact .same rfl

/-- What the execution of a command's code and payload does, the code of a reset being that of the reset's command. -/
theorem commandReply_act {c : Instr} {code : Byte} (h48 : code.toNat = 48 → ∃ p, c = .softReset p)
    (h49 : code.toNat = 49 → mayResetLane c = true) (p : List Byte) (s : State) : PoolAct c s (commandReply code p s).state := by
  unfold commandReply
  split
  · exact (replySetPlan_act c p s).ofLength
  · exact .same (pool_ofLength (pool_replySetDetect p s))
  · exact .same (pool_ofLength (pool_replySetSchedule p s))
  · exact .same (pool_ofLength (pool_replySetRoute p s))
  · exact .same (pool_ofLength (pool_replySetCue p s))
  · exact .same (pool_ofLength (pool_replySetCadence p s))
  · exact .same (pool_ofLength (pool_replySetChapters p s))
  · exact .same (pool_ofLength (pool_replySetLaneLimits p s))
  · exact .same (pool_ofLength (pool_replyAttrWrite p s))
  · exact .same (pool_ofLength (pool_replyAttrRead p s))
  · exact .same (pool_ofLength (pool_replyBadgeWrite p s))
  · exact .same (pool_ofLength rfl)
  · exact .same (pool_ofLength (pool_replyReadCounters p s))
  · exact .same (pool_ofLength rfl)
  · exact .same (pool_ofLength rfl)
  · exact .same (pool_ofLength rfl)
  · exact .same (pool_ofLength rfl)
  · next h =>
    obtain ⟨q, hq⟩ := h48 h
    exact PoolAct.ofLength (.softReset q hq rfl)
  · next h => exact (replyLaneReset_act (h49 h) p s).ofLength
  · exact .same rfl

/-- A frame closed over the execution of its command. -/
theorem closeFrame_change {c : Instr} {code : Byte} (h48 : code.toNat = 48 → ∃ p, c = .softReset p)
    (h49 : code.toNat = 49 → mayResetLane c = true) (staged p : List Byte) (s : State) (hr : s.rstnLow = false) :
    PoolChange c s (closeFrame staged (commandReply code p s)) :=
  .acts hr ((commandReply_act h48 h49 p s).of_pool rfl)

/-- A management row: on a frame of its own the command is executed. -/
theorem takeCommand_change {c : Instr} {code : Byte} (h48 : code.toNat = 48 → ∃ p, c = .softReset p)
    (h49 : code.toNat = 49 → mayResetLane c = true) {p : List Byte} {s t : State} (h : takeCommand code p s = .next t) :
    ∃ u, u.pool = s.pool ∧ PoolChange c u t := by
  rcases running_eq s (fun s => .next (executeFrame (code :: BitVec.ofNat 8 p.length :: p) { s with mlu := newFrame s.mlu }))
    with ⟨-, e⟩ | ⟨hr, -⟩
  · refine ⟨s, rfl, .same ?_⟩
    cases (e.symm.trans h)
    rfl
  · rw [takeCommand_eq code p hr] at h
    cases h
    refine ⟨_, ?_, closeFrame_change h48 h49 _ p _ ?_⟩
    · rfl
    · exact hr

/-! ### The bytes of a management frame -/

/-- The code and the payload of a complete frame spell a command whose execution is that command's. -/
theorem frameCommand_codes {code len : Byte} {p : List Byte} (h : frameComplete (code :: len :: p) = true) :
    ∃ c, frameCommand (code :: len :: p) = some c ∧ (code.toNat = 48 → ∃ q, c = .softReset q) ∧
      (code.toNat = 49 → mayResetLane c = true) := by
  simp only [frameCommand, h, Bool.not_true, Bool.false_eq_true, if_false]
  refine ⟨_, rfl, fun e => ?_, fun e => ?_⟩ <;> rw [e]
  · exact ⟨p, rfl⟩
  · rfl

theorem clockByte_change {b : Byte} {s : State} (hr : s.rstnLow = false) :
    ∃ u, u.pool = s.pool ∧ PoolChange (performed (.managementFrameCutOff (.byte b)) s) u (clockByte b s) := by
  rcases clockByte_cases b s with ⟨-, e⟩ | ⟨-, -, e⟩ | ⟨hf, code, len, p, hs, hc, e⟩ | ⟨-, f, -, -, e⟩
  · exact ⟨s, rfl, .same (by rw [e])⟩
  · exact ⟨s, rfl, .same (by rw [e]; rfl)⟩
  · obtain ⟨c, hfc, h48, h49⟩ := frameCommand_codes hc
    have hp : performed (.managementFrameCutOff (.byte b)) s = c := by
      simp only [performed, hr, hf, and_self, if_true, hs, hfc, Option.getD_some]
    rw [hp, e]
    refine ⟨_, ?_, closeFrame_change h48 h49 _ p _ ?_⟩
    · rfl
    · exact hr
  · exact ⟨s, rfl, .same (by rw [e]; rfl)⟩

theorem moveFrame_change {m : FrameMove} {s : State} (hr : s.rstnLow = false) :
    ∃ u, u.pool = s.pool ∧ PoolChange (performed (.managementFrameCutOff m) s) u (moveFrame m s) := by
  cases m with
  | whole staged =>
    refine ⟨s, rfl, .same ?_⟩
    simp only [moveFrame]
    split <;> rfl
  | fall => exact ⟨s, rfl, .same rfl⟩
  | byte b => exact clockByte_change hr
  | rise => exact ⟨s, rfl, .same rfl⟩

/-! ### The other commands -/

/-- A command that runs only while RSTN is high changes nothing of the pool, or does one of the acts. -/
theorem running_change {c : Instr} {s t : State} {f : State → Host.Outcome State Fault Refusal}
    (h : running s f = .next t) (hf : s.rstnLow = false → f s = .next t → PoolAct c s t) : ∃ u, u.pool = s.pool ∧ PoolChange c u t := by
  refine ⟨s, rfl, ?_⟩
  rcases running_eq s f with ⟨-, e⟩ | ⟨hr, e⟩
  · cases (e.symm.trans h)
    exact .same rfl
  · exact .acts hr (hf hr (e.symm.trans h))

theorem ingestRequest_change {c : Instr} {want : ReqKind} {lane : Lane} {body : Src → Request → State → State} {s t : State}
    (h : ingestRequest want lane body s = .next t)
    (hb : ∀ x r, readyHead s (.il x) = some r → PoolAct c s (body x r s)) : ∃ u, u.pool = s.pool ∧ PoolChange c u t := by
  refine ⟨s, rfl, ?_⟩
  rcases ingestRequest_cases want lane body s with e | ⟨l, rfl, e⟩ | ⟨x, r, rfl, hr, hh, -, e⟩ <;> cases (e.symm.trans h)
  · exact .same rfl
  · exact .same (pool_answerHead ..)
  · exact .acts hr (hb x r hh)

theorem renditionRequest_change {c : Instr} {test : Request → Bool} {lane : Lane} {body : RLane → Request → State → State}
    {s t : State} (h : renditionRequest test lane body s = .next t)
    (hb : ∀ l r, readyHead s (.rl l) = some r → PoolAct c s (body l r s)) : ∃ u, u.pool = s.pool ∧ PoolChange c u t := by
  refine ⟨s, rfl, ?_⟩
  rcases renditionRequest_cases test lane body s with e | ⟨x, rfl, e⟩ | ⟨l, r, rfl, hr, hh, -, e⟩ <;> cases (e.symm.trans h)
  · exact .same rfl
  · exact .same (pool_answerHead ..)
  · exact .acts hr (hb l r hh)

theorem execOpenWaitDeadline_change {c : Instr} {x : Src} {s t : State} (h : execOpenWaitDeadline x s = .next t) :
    ∃ u, u.pool = s.pool ∧ PoolChange c u t := by
  refine running_change h fun _ h => ?_
  split at h
  · cases h; exact .same rfl
  · split at h
    · cases h
      exact .waitOver x (by rw [pool_answerHead]; rfl)
    · cases h; exact .same rfl

theorem execClaimWaitDeadline_change {c : Instr} {l : RLane} {s t : State} (h : execClaimWaitDeadline l s = .next t) :
    ∃ u, u.pool = s.pool ∧ PoolChange c u t := by
  refine running_change h fun _ h => ?_
  split at h
  · cases h; exact .same rfl
  · split at h
    · cases h
      exact .claimOver l (pool_answerHead ..)
    · cases h; exact .same rfl

theorem execIngestBurstComplete_change {c : Instr} {s t : State} (h : execIngestBurstComplete s = .next t) :
    ∃ u, u.pool = s.pool ∧ PoolChange c u t := by
  rcases running_eq s _ with ⟨-, e⟩ | ⟨hr, e⟩ <;> have h := e.symm.trans h
  · cases h
    exact ⟨s, rfl, .same rfl⟩
  · dsimp only at h
    split at h
    · split at h
      · next x a data _ =>
        split at h
        · cases h; exact ⟨s, rfl, .same rfl⟩
        · split at h
          · cases h
          · cases h
            refine ⟨{ s with mem := writeBytes s.mem a data }, rfl, .acts hr (PoolAct.of_pool ?_ (pool_endBurst _))⟩
            split
            · exact finishRow_act c x _
            · exact .same rfl
      · cases h; exact ⟨s, rfl, .same rfl⟩
    · cases h; exact ⟨s, rfl, .same rfl⟩

theorem execDetectorRowBurstComplete_change {c : Instr} {s t : State} (h : execDetectorRowBurstComplete s = .next t) :
    ∃ u, u.pool = s.pool ∧ PoolChange c u t := by
  rcases running_eq s _ with ⟨-, e⟩ | ⟨hr, e⟩ <;> have h := e.symm.trans h
  · cases h
    exact ⟨s, rfl, .same rfl⟩
  · split at h
    · split at h
      · split at h
        · cases h; exact ⟨s, rfl, .same rfl⟩
        · split at h
          · next k hk =>
            split at h
            · cases h; exact ⟨s, rfl, .same (pool_endBurst s)⟩
            · split at h
              · cases h
                exact ⟨endBurst s, pool_endBurst s, .acts (by simpa using hr) (rowStep_act c (by simpa using hk))⟩
              · cases h
          · cases h; exact ⟨s, rfl, .same (pool_endBurst s)⟩
      · cases h; exact ⟨s, rfl, .same rfl⟩
    · cases h; exact ⟨s, rfl, .same rfl⟩

theorem execBandBurstComplete_pool {s t : State} (h : execBandBurstComplete s = .next t) : t.pool = s.pool := by
  rcases running_eq s _ with ⟨-, e⟩ | ⟨hr, e⟩ <;> have h := e.symm.trans h
  · cases h; rfl
  · dsimp only at h
    repeat' split at h
    all_goals cases h
    all_goals first
      | rfl
      | (rw [pool_endBurst, pool_bufferBand]; rfl)
      | (rw [pool_endBurst]; rfl)

theorem execTransmitRecord_pool {lane : Lane} {part : SendPart} {s t : State} (h : execTransmitRecord lane part s = .next t) :
    t.pool = s.pool := by
  rcases running_eq s _ with ⟨-, e⟩ | ⟨hr, e⟩ <;> have h := e.symm.trans h
  · cases h; rfl
  · cases part with
    | start => cases h; exact pool_beginSend ..
    | finish => cases h; exact pool_endSend ..
    | whole =>
      dsimp only at h
      split at h <;> cases h
      · rfl
      · rw [pool_endSend, pool_beginSend]

theorem execPeriodEvent_pool {s t : State} (h : execPeriodEvent s = .next t) : t.pool = s.pool := by
  rcases running_eq s _ with ⟨-, e⟩ | ⟨hr, e⟩ <;> have h := e.symm.trans h
  · cases h; rfl
  · dsimp only at h
    split at h <;> cases h <;> rfl

theorem execRefreshComplete_pool {s t : State} (h : execRefreshComplete s = .next t) : t.pool = s.pool := by
  rcases running_eq s _ with ⟨-, e⟩ | ⟨hr, e⟩ <;> have h := e.symm.trans h
  · cases h; rfl
  · split at h
    · split at h <;> cases h
      · rw [pool_endBurst]; rfl
      · rfl
    · cases h; rfl

theorem execCadenceExpiry_pool {x : Src} {s t : State} (h : execCadenceExpiry x s = .next t) : t.pool = s.pool := by
  rcases running_eq s _ with ⟨-, e⟩ | ⟨hr, e⟩ <;> have h := e.symm.trans h
  · cases h; rfl
  · dsimp only at h
    split at h
    · cases h; rfl
    · split at h <;> cases h
      · rw [pool_modCadence]
        split
        · exact pool_repeatFrame ..
        · rfl
      · rfl

theorem execCueEdge_pool {e : CueEdge} {s t : State} (h : execCueEdge e s = .next t) : t.pool = s.pool := by
  rcases running_eq s _ with ⟨-, e⟩ | ⟨hr, e⟩ <;> have h := e.symm.trans h
  · cases h; rfl
  · dsimp only at h
    split at h <;> cases h
    · rw [pool_captureCue]; rfl
    · rfl

theorem execSpacingHoldEnd_pool {s t : State} (h : execSpacingHoldEnd s = .next t) : t.pool = s.pool := by
  rcases running_eq s _ with ⟨-, e⟩ | ⟨hr, e⟩ <;> have h := e.symm.trans h
  · cases h; rfl
  · dsimp only at h
    split at h
    · cases h; rfl
    · split at h <;> cases h <;> rfl

theorem execCueAgeExpiry_pool {s t : State} (h : execCueAgeExpiry s = .next t) : t.pool = s.pool := by
  rcases running_eq s _ with ⟨-, e⟩ | ⟨hr, e⟩ <;> have h := e.symm.trans h
  · cases h; rfl
  · dsimp only at h
    split at h <;> cases h <;> rfl

theorem execMarkerPulseEnd_pool {pin : MarkerPin} {s t : State} (h : execMarkerPulseEnd pin s = .next t) : t.pool = s.pool := by
  rcases running_eq s _ with ⟨-, e⟩ | ⟨hr, e⟩ <;> have h := e.symm.trans h <;> cases h <;> rfl

theorem execRecordReceived_change {lane : Lane} {bytes : List Byte} {s t : State} (h : execRecordReceived lane bytes s = .next t) :
    ∃ u, u.pool = s.pool ∧ PoolChange (.recordReceived lane bytes) u t := by
  rcases running_eq s _ with ⟨-, e⟩ | ⟨hr, e⟩ <;> have h := e.symm.trans h
  · cases h
    exact ⟨s, rfl, .same rfl⟩
  · split at h
    · split at h <;> cases h
      · exact ⟨s, rfl, .same (pool_queueRequest ..)⟩
      · unfold countBadRecord
        dsimp only
        split
        · exact ⟨_, pool_modLink .., .acts (by simpa using hr) (resetLane_act rfl lane _)⟩
        · exact ⟨s, rfl, .same (pool_modLink ..)⟩
    · cases h
      exact ⟨s, rfl, .same rfl⟩

theorem execLinkTrainingComplete_change {c : Instr} {lane : Lane} {s t : State}
    (h : execLinkTrainingComplete lane s = .next t) : ∃ u, u.pool = s.pool ∧ PoolChange c u t := by
  refine running_change h fun _ h => ?_
  cases h
  exact .same (pool_modLink ..)

theorem execLinkLoss_change {lane : Lane} {s t : State} (h : execLinkLoss lane s = .next t) :
    ∃ u, u.pool = s.pool ∧ PoolChange (.linkLoss lane) u t := by
  refine running_change h fun _ h => ?_
  split at h <;> cases h
  · exact resetLane_act rfl lane s
  · exact .same rfl

theorem execMalformedRequest_pool {lane : Lane} {s t : State} (h : execMalformedRequest lane s = .next t) : t.pool = s.pool := by
  rcases running_eq s _ with ⟨-, e⟩ | ⟨hr, e⟩ <;> have h := e.symm.trans h
  · cases h; rfl
  · split at h
    · cases h; rfl
    · split at h <;> cases h
      · exact pool_answerHead ..
      · rfl

theorem execManagementFrameCutOff_change {m : FrameMove} {s t : State} (h : execManagementFrameCutOff m s = .next t) :
    ∃ u, u.pool = s.pool ∧ PoolChange (performed (.managementFrameCutOff m) s) u t := by
  unfold execManagementFrameCutOff at h
  split at h <;> cases h
  · exact ⟨s, rfl, .same rfl⟩
  · next hr => exact moveFrame_change (by simpa using hr)

/-- Every command does one of the changes of the pool, from a state that differs from the one given in the management frame, the
DRAM's work or a link alone. -/
theorem exec_change {c : Instr} {s t : State} (h : exec c s = .next t) :
    ∃ u, u.pool = s.pool ∧ PoolChange (performed c s) u t := by
  have same : ∀ {c}, t.pool = s.pool → ∃ u, u.pool = s.pool ∧ PoolChange c u t := fun e => ⟨s, rfl, .same e⟩
  cases c with
  | powerOnReset => cases h; exact ⟨s, rfl, .startUp rfl s.rstnLow rfl⟩
  | boardReset => cases h; exact ⟨s, rfl, .startUp rfl false rfl⟩
  | rstnAsserted => exact ⟨s, rfl, .halted h⟩
  | softReset p => exact takeCommand_change (fun _ => ⟨p, rfl⟩) (by simp) h
  | laneReset p => exact takeCommand_change (by simp) (fun _ => rfl) h
  | setPlan p | setDetect p | setSchedule p | setRoute p | setCue p | setCadence p | setChapters p | setLaneLimits p
  | attrWrite p | attrRead p | badgeWrite p | readStatus p | readCounters p | popChapters p | readMarkers p
  | readResetCause p | clearResetCause p => exact takeCommand_change (by simp) (by simp) h
  | unknownCommand code p =>
    simp only [exec, execUnknownCommand] at h
    split at h
    · cases h; exact same rfl
    · next hc =>
      refine takeCommand_change (fun e => ?_) (fun e => ?_) h <;> (rw [e] at hc; exact absurd rfl hc)
  | managementFrameCutOff m => exact execManagementFrameCutOff_change h
  | linkTrainingComplete lane => exact execLinkTrainingComplete_change h
  | linkLoss lane => exact execLinkLoss_change h
  | recordReceived lane bytes => exact execRecordReceived_change h
  | malformedRequest lane => exact same (execMalformedRequest_pool h)
  | openFrame lane => exact ingestRequest_change h fun x r hr => openBody_act _ hr
  | putRows lane => exact ingestRequest_change h fun x r hr => .same (putBody_pool ..)
  | sealFrame lane => exact ingestRequest_change h fun x r hr => sealBody_act ..
  | abandonFrame lane =>
    refine ingestRequest_change h fun x r hr => ?_
    rcases abandonBody_aftermath x r s with e | ⟨k, hk, e⟩
    · exact .same e
    · exact .abandoned x k hk e
  | bind lane => exact renditionRequest_change h fun l r hr => bindBody_act _ hr
  | unbind lane => exact renditionRequest_change h fun l r hr => unbindBody_act _ hr
  | claimNext lane =>
    exact renditionRequest_change h fun l r hr => claimChecked_act _ _ fun b hb hh => nextBody_act _ (not_busy_rl hr) hb hh
  | claimLatest lane =>
    exact renditionRequest_change h fun l r hr => claimChecked_act _ _ fun b hb hh => latestBody_act _ (not_busy_rl hr) hb hh
  | claimNumber lane =>
    exact renditionRequest_change h fun l r hr => claimChecked_act _ _ fun b hb hh => numberBody_act _ (not_busy_rl hr) hb hh
  | release lane => exact renditionRequest_change h fun l r hr => releaseBody_act _ ⟨lane, rfl⟩ l r s
  | fetch lane => exact renditionRequest_change h fun l r hr => .same (fetchBody_pool ..)
  | fetchMaskFrame lane => exact renditionRequest_change h fun l r hr => .same (maskChecked_pool ..)
  | fetchMaskSince lane => exact renditionRequest_change h fun l r hr => .same (maskChecked_pool ..)
  | subscribe lane => exact renditionRequest_change h fun l r hr => .same (subscribeBody_pool ..)
  | openWaitDeadline x => exact execOpenWaitDeadline_change h
  | claimWaitDeadline l => exact execClaimWaitDeadline_change h
  | ingestBurstComplete => exact execIngestBurstComplete_change h
  | detectorRowBurstComplete => exact execDetectorRowBurstComplete_change h
  | bandBurstComplete => exact same (execBandBurstComplete_pool h)
  | transmitRecord lane part => exact same (execTransmitRecord_pool h)
  | periodEvent => exact same (execPeriodEvent_pool h)
  | refreshComplete => exact same (execRefreshComplete_pool h)
  | cadenceExpiry x => exact same (execCadenceExpiry_pool h)
  | cueEdge e => exact same (execCueEdge_pool h)
  | spacingHoldEnd => exact same (execSpacingHoldEnd_pool h)
  | cueAgeExpiry => exact same (execCueAgeExpiry_pool h)
  | markerPulseEnd pin => exact same (execMarkerPulseEnd_pool h)

/-- Every step does one of the changes of the pool. -/
theorem step_change {s t : State} (h : step s = .next t) : ∃ c u, u.pool = s.pool ∧ PoolChange c u t := by
  rcases step_cases s with ⟨c, rest, -, e⟩ | ⟨-, -, e⟩ | ⟨c, -, -, -, e⟩ | ⟨-, -, -, e⟩ <;> have h := e.symm.trans h
  · obtain ⟨u, hu, hc⟩ := exec_change h
    exact ⟨_, u, hu, hc⟩
  · cases h; exact ⟨.rstnAsserted, s, rfl, .same rfl⟩
  · obtain ⟨u, hu, hc⟩ := exec_change h
    exact ⟨_, u, hu, hc⟩
  · cases h; exact ⟨.rstnAsserted, s, rfl, .same rfl⟩

/-- A law of the pool that every change keeps is kept by every step. -/
theorem step_keeps {P Q : State → Prop} (hP : ∀ {s t : State}, t.pool = s.pool → P s → P t)
    (h : ∀ {c s t}, PoolChange c s t → P s → Q t) {s t : State} (hs : P s) (ht : step s = .next t) : Q t := by
  obtain ⟨c, u, hu, hc⟩ := step_change ht
  exact h hc (hP hu hs)

end Sys2Proof.Machine
end

section
/-! SUPPORT. What of the state the laws speak of that do not read holds, owed sets and bindings, and the acts of the commands on it:
claims, releases, bindings and resets of rendition lanes leave it alone but for the free checks that follow. -/

namespace Sys2Proof.Machine

open Sys2Proof Sys2Proof.Claims

/-! ### Frames without their holds and owed sets -/

/-- A slot without its hold count and owed set. -/
def bare : Slot → Slot
  | .analysed c f v _ _ => .analysed c f v 0 ⟨false, false, false, false⟩
  | k => k

@[simp] theorem bare_addHold (c : Slot) : bare (addHold c) = bare c := by cases c <;> rfl
@[simp] theorem bare_dropHold (c : Slot) : bare (dropHold c) = bare c := by cases c <;> rfl
@[simp] theorem bare_leaveOwed (l : RLane) (c : Slot) : bare (leaveOwed l c) = bare c := by cases c <;> rfl
@[simp] theorem bare_bare (c : Slot) : bare (bare c) = bare c := by cases c <;> rfl
@[simp] theorem slotSource_bare (c : Slot) : slotSource (bare c) = slotSource c := by cases c <;> rfl
@[simp] theorem slotFrame_bare (c : Slot) : slotFrame (bare c) = slotFrame c := by cases c <;> rfl
@[simp] theorem slotState_bare (c : Slot) : slotState (bare c) = slotState c := by
  match c with
  | .free => rfl
  | .filling _ _ _ => rfl
  | .queued _ => rfl
  | .analysing _ => rfl
  | .analysed true _ _ _ _ => rfl
  | .analysed false _ _ _ _ => rfl

theorem map_bare_set (xs : List Slot) (k : Nat) (v : Slot) : (xs.set k v).map bare = (xs.map bare).set k (bare v) :=
  List.map_set

/-- The part of the state that the laws speak of that do not read holds, owed sets and bindings. -/
def State.frames (s : State) : PoolView :=
  { s.pool with
    slots := s.fpc.slots.map bare
    binding := fun _ => none, mark := fun _ => none, holds := fun _ => [], pendingClaim := fun _ => none }

theorem frames_of_pool {s t : State} (h : t.pool = s.pool) : t.frames = s.frames := by
  simp only [State.frames, h, pool_slots h]

section
variable {s t : State} (h : t.frames = s.frames)
include h

theorem frames_rstnLow : t.rstnLow = s.rstnLow := congrArg PoolView.rstnLow h
theorem frames_plan : t.fpc.plan = s.fpc.plan := congrArg PoolView.plan h
theorem frames_slots : t.fpc.slots.map bare = s.fpc.slots.map bare := congrArg PoolView.slots h
theorem frames_current : t.fpc.current = s.fpc.current := congrArg PoolView.current h
theorem frames_nextFrame : t.fpc.nextFrame = s.fpc.nextFrame := congrArg PoolView.nextFrame h
theorem frames_waitList : t.fpc.waitList = s.fpc.waitList := congrArg PoolView.waitList h
theorem frames_queue : t.cd.queue = s.cd.queue := congrArg PoolView.queue h
theorem frames_ctx : t.cd.ctx = s.cd.ctx := congrArg PoolView.ctx h
theorem frames_openFrame (x : Src) : (t.il.get x).openFrame = (s.il.get x).openFrame :=
  congrFun (congrArg PoolView.openFrame h) x
theorem frames_pendingOpen (x : Src) : (t.il.get x).pendingOpen = (s.il.get x).pendingOpen :=
  congrFun (congrArg PoolView.pendingOpen h) x

theorem frames_quota (x : Src) : t.quota x = s.quota x := by simp only [State.quota, State.sourcePlan, frames_plan h]
theorem frames_cols (x : Src) : t.cols x = s.cols x := by simp only [State.cols, State.sourcePlan, frames_plan h]
theorem frames_rows (x : Src) : t.rows x = s.rows x := by simp only [State.rows, State.sourcePlan, frames_plan h]

theorem frames_length : t.fpc.slots.length = s.fpc.slots.length := by simpa using congrArg List.length (frames_slots h)

theorem frames_getElem? (k : Nat) : (t.fpc.slots[k]?).map bare = (s.fpc.slots[k]?).map bare := by
  simpa using congrArg (fun l : List Slot => l[k]?) (frames_slots h)

theorem frames_occupancy (x : Src) : t.occupancy x = s.occupancy x := by
  have key : ∀ u : State, u.occupancy x = (u.fpc.slots.map bare).countP (fun k => slotSource k = some x) := by
    intro u
    rw [List.countP_map]
    simp only [State.occupancy, Function.comp_def, slotSource_bare]
  rw [key, key, frames_slots h]

end

/-! ### Where a kind of slot stands -/

/-- Slot k is FILLING for source x. -/
def FillingAt (slots : List Slot) (x : Src) (k : Nat) : Prop := ∃ p n, slots[k]? = some (.filling x p n)

/-- Slot k is CURRENT for source x. -/
def CurrentAt (slots : List Slot) (x : Src) (k : Nat) : Prop :=
  ∃ f v h o, slots[k]? = some (.analysed true f v h o) ∧ f.source = x

/-- Slot k is ANALYSING. -/
def AnalysingAt (slots : List Slot) (k : Nat) : Prop := ∃ f, slots[k]? = some (.analysing f)

/-- Slot k is QUEUED. -/
def QueuedAt (slots : List Slot) (k : Nat) : Prop := ∃ f, slots[k]? = some (.queued f)

/-- One slot set to a value. -/
theorem getElem?_set_of_some {xs : List Slot} {k : Nat} {old : Slot} (hk : xs[k]? = some old) (v : Slot) (j : Nat) :
    (xs.set k v)[j]? = if j = k then some v else xs[j]? := by
  have := (List.getElem?_eq_some_iff.mp hk).1
  rw [List.getElem?_set]
  by_cases h : j = k
  · subst h; simp [this]
  · simp [h, Ne.symm h]

section
variable {xs : List Slot} {k : Nat} {old : Slot} (hk : xs[k]? = some old) (v : Slot)
include hk

theorem fillingAt_set (x : Src) (j : Nat) :
    FillingAt (xs.set k v) x j ↔ if j = k then ∃ p n, v = .filling x p n else FillingAt xs x j := by
  simp only [FillingAt, getElem?_set_of_some hk]
  split <;> simp

theorem currentAt_set (x : Src) (j : Nat) : CurrentAt (xs.set k v) x j ↔
    if j = k then ∃ f w h o, v = .analysed true f w h o ∧ f.source = x else CurrentAt xs x j := by
  simp only [CurrentAt, getElem?_set_of_some hk]
  split <;> simp

theorem analysingAt_set (j : Nat) :
    AnalysingAt (xs.set k v) j ↔ if j = k then ∃ f, v = .analysing f else AnalysingAt xs j := by
  simp only [AnalysingAt, getElem?_set_of_some hk]
  split <;> simp

theorem queuedAt_set (j : Nat) : QueuedAt (xs.set k v) j ↔ if j = k then ∃ f, v = .queued f else QueuedAt xs j := by
  simp only [QueuedAt, getElem?_set_of_some hk]
  split <;> simp

end

theorem fillingAt_bare (xs : List Slot) (x : Src) (k : Nat) : FillingAt (xs.map bare) x k ↔ FillingAt xs x k := by
  simp only [FillingAt, List.getElem?_map]
  cases xs[k]? with
  | none => simp
  | some c => cases c <;> simp [bare]

theorem currentAt_bare (xs : List Slot) (x : Src) (k : Nat) : CurrentAt (xs.map bare) x k ↔ CurrentAt xs x k := by
  simp only [CurrentAt, List.getElem?_map]
  cases xs[k]? with
  | none => simp
  | some c => cases c <;> simp [bare]

theorem analysingAt_bare (xs : List Slot) (k : Nat) : AnalysingAt (xs.map bare) k ↔ AnalysingAt xs k := by
  simp only [AnalysingAt, List.getElem?_map]
  cases xs[k]? with
  | none => simp
  | some c => cases c <;> simp [bare]

theorem queuedAt_bare (xs : List Slot) (k : Nat) : QueuedAt (xs.map bare) k ↔ QueuedAt xs k := by
  simp only [QueuedAt, List.getElem?_map]
  cases xs[k]? with
  | none => simp
  | some c => cases c <;> simp [bare]

/-! ### What the rendition lanes' operations leave alone -/

@[simp] theorem frames_modRl (s : State) (l : RLane) (f : RenditionLane → RenditionLane) : (s.modRl l f).frames = s.frames := rfl

theorem frames_mapSlots (s : State) (f : Slot → Slot) (hf : ∀ c, bare (f c) = bare c) : (s.mapSlots f).frames = s.frames := by
  have : (s.fpc.slots.map f).map bare = s.fpc.slots.map bare := by
    rw [List.map_map]
    exact List.map_congr_left fun c _ => hf c
  simp only [State.frames, pool_mapSlots_eq, State.mapSlots_fpc, this]

theorem frames_setSlot (s : State) (k : Nat) (v : Slot) (hv : bare v = bare (s.slot k)) : (s.setSlot k v).frames = s.frames := by
  have : (s.fpc.slots.set k v).map bare = s.fpc.slots.map bare := by
    rw [map_bare_set, hv]
    refine List.ext_getElem? fun j => ?_
    rw [List.getElem?_set]
    split
    · next h =>
      subst h
      by_cases hl : k < s.fpc.slots.length
      · simp [hl, State.slot]
      · simp [hl]
    · rfl
  simp only [State.frames, pool_setSlot_eq, State.setSlot_fpc, this]

theorem frames_releasedState (l : RLane) (s : State) : (releasedState l s).frames = s.frames := by
  have : (releaseAll l (s.rl.get l).holds s.fpc.slots).map bare = s.fpc.slots.map bare := by
    refine List.ext_getElem? fun j => ?_
    simp only [releaseAll, List.map_map, List.getElem?_map, List.getElem?_mapIdx]
    cases s.fpc.slots[j]? with
    | none => rfl
    | some c => simp only [Option.map_some, Function.comp_apply, bare_leaveOwed]; split <;> simp
  rw [releasedState, frames_modRl]
  simp only [State.frames, pool_fpc_eq, this]
  rfl

theorem frames_unboundState (l : RLane) (x : Src) (s : State) : (unboundState l x s).frames = s.frames := by
  rw [unboundState, frames_mapSlots, frames_modRl]
  intro c
  split <;> simp

theorem frames_claimedState {l : RLane} {b : Binding} {k : Nat} {f : SealedFrame} {s : State} :
    (claimedState l b k f s).frames = s.frames := by
  rw [claimedState, frames_modRl, claimSlots, frames_mapSlots, frames_setSlot]
  · simp
  · intro c
    split <;> simp

theorem frames_returnedState (l : RLane) (k : Nat) (s : State) : (returnedState l k s).frames = s.frames := by
  rw [returnedState, frames_setSlot, frames_modRl]
  exact bare_dropHold _

/-! ### The acts of the commands -/

/-- One move of the frames: one of the pool, or a change of holds, owed sets or bindings alone. -/
inductive FrameMove (s t : State) : Prop
  | same (h : t.frames = s.frames)
  | serve (e : WaitEntry) (k : Nat) (he : e ∈ s.fpc.waitList) (hk : Fillable e.source k s)
      (h : t.frames = (fillSlot e.source e.pts k (unlist e.source s)).frames)
  | free (k : Nat) (f : SealedFrame) (v : Verdict) (o : PerRL Bool) (hk : s.fpc.slots[k]? = some (.analysed false f v 0 o))
      (h : t.frames = (s.setSlot k .free).frames)

/-- The moves of the frames that follow an event. -/
abbrev FrameMoves : State → State → Prop := Relation.ReflTransGen FrameMove

theorem FrameMoves.of_frames {s t : State} (h : t.frames = s.frames) : FrameMoves s t := .single (.same h)

theorem Move.frame {s t : State} (m : Move s t) : FrameMove s t := by
  cases m with
  | same h => exact .same (frames_of_pool h)
  | serve e k he hk h => exact .serve e k he hk (frames_of_pool h)
  | free k f v o hk h => exact .free k f v o hk (frames_of_pool h)

theorem Aftermath.frames {s t : State} (h : Aftermath s t) : FrameMoves s t := h.lift id fun _ _ m => m.frame

/-- What every move of the frames keeps, all of them keep. -/
theorem FrameMoves.keeps {P : State → Prop} (h : ∀ u v, P u → FrameMove u v → P v) {s t : State} (m : FrameMoves s t)
    (hs : P s) : P t := by
  induction m with
  | refl => exact hs
  | tail _ m ih => exact h _ _ ih m

theorem Settled.frames {before : List Slot} {s u t : State} (h : Settled before u t) (hu : u.frames = s.frames) : FrameMoves s t :=
  (FrameMoves.of_frames hu).trans h.moves.frames

/-- The moves of a completion's pending claims. -/
theorem PendingStep.frames {x : Src} {k : Nat} {s t : State} (h : PendingStep x k s t) : FrameMoves s t := by
  cases h with
  | same h => exact FrameMoves.of_frames (frames_of_pool h)
  | taken l b hb hx hp h =>
    obtain ⟨cur, f, v, n, o, hk, h⟩ := h
    exact h.frames frames_claimedState

/-- What a command does to the frames while RSTN is high. -/
inductive FrameAct (s t : State) : Prop
  | moves (h : FrameMoves s t)
  | planned (p : Plan) (hp : planValid p s.ms = true) (hq : ∀ x, (p.source.get x).enabled = false → (p.source.get x).quota = 0)
      (hi : poolIdle s = true) (h : t.frames = (takePlan p s).frames)
  | softReset (h : t.frames = (softResetPart s).frames)
  | ingestReset (x : Src) (h : FrameMoves (dropWait x (leaveFrame x s)) t)
  | opened (x : Src) (p : Pts) (k : Nat) (ho : (s.il.get x).openFrame = none) (hp : (s.il.get x).pendingOpen = none)
      (hk : Fillable x k s) (h : t.frames = (fillSlot x p k s).frames)
  | waits (x : Src) (tag : Byte) (p : Pts) (due : Stamp) (ho : (s.il.get x).openFrame = none)
      (hp : (s.il.get x).pendingOpen = none) (h : t.frames = (joinWait x tag p due s).frames)
  | waitOver (x : Src) (h : t.frames = (dropWait x s).frames)
  | rowWritten (x : Src) (k : Nat) (ho : (s.il.get x).openFrame = some k)
      (h : t.frames = (s.setSlot k (addRow (s.slot k))).frames)
  | seals (x : Src) (k : Nat) (y : Src) (p : Pts) (n : Nat) (u : State) (ho : (s.il.get x).openFrame = some k)
      (hk : s.fpc.slots[k]? = some (.filling y p n)) (hu : u.frames = (sealedState x k y p s).frames)
      (h : t.frames = (startAnalysis u).frames)
  | abandoned (x : Src) (k : Nat) (ho : (s.il.get x).openFrame = some k) (h : FrameMoves (leaveFrame x s) t)
  | row (c₀ c₁ : AnalysisCtx) (hc : s.cd.ctx = some c₀) (hm : Measured c₀ c₁) (hn : c₁.nextRow < c₁.rows)
      (h : t.frames = (withCtx (some c₁) s).frames)
  | lost (c₀ : AnalysisCtx) (u : State) (hc : s.cd.ctx = some c₀) (hk : ∀ f, s.slot c₀.slot ≠ .analysing f)
      (hu : u.frames = (withCtx none s).frames) (h : t.frames = (startAnalysis u).frames)
  | completes (c₀ c₁ : AnalysisCtx) (f : SealedFrame) (v : Verdict) (a d u : State) (hc : s.cd.ctx = some c₀) (hm : Measured c₀ c₁)
      (hn : c₁.rows ≤ c₁.nextRow) (hk : s.fpc.slots[c₁.slot]? = some (.analysing f)) (hv : Consistent v)
      (hch : v.changed = c₁.changed) (hac : v.active = c₁.active)
      (ha : a.frames = (supersede f.source c₁.slot f v (withCtx (some c₁) s)).frames) (hd : FrameMoves a d)
      (hu : u.frames = (withCtx none d).frames) (h : t.frames = (startAnalysis u).frames)

theorem PendingSteps.frames {x : Src} {k : Nat} {s t : State} (h : Relation.ReflTransGen (PendingStep x k) s t) : FrameMoves s t := by
  induction h with
  | refl => exact .refl
  | tail _ m ih => exact ih.trans m.frames

/-- An act on the pool is an act on its frames. -/
theorem PoolAct.frameAct {c : Instr} {s t : State} (h : PoolAct c s t) : FrameAct s t := by
  cases h with
  | same h => exact .moves (FrameMoves.of_frames (frames_of_pool h))
  | planned p hp hq hi h => exact .planned p hp hq hi (frames_of_pool h)
  | softReset p hc h => exact .softReset (frames_of_pool h)
  | ingestReset x hc h => exact .ingestReset x h.frames
  | renditionReset l hc h => exact .moves (h.frames (frames_releasedState l s))
  | opened x p k ho hp hk h => exact .opened x p k ho hp hk (frames_of_pool h)
  | waits x tag p due ho hp h => exact .waits x tag p due ho hp (frames_of_pool h)
  | waitOver x h => exact .waitOver x (frames_of_pool h)
  | rowWritten x k ho h => exact .rowWritten x k ho (frames_of_pool h)
  | seals x k y p n u ho hk hu h => exact .seals x k y p n u ho hk (frames_of_pool hu) (frames_of_pool h)
  | abandoned x k ho h => exact .abandoned x k ho h.frames
  | rewindowed l b v hb h => exact .moves (FrameMoves.of_frames ((frames_of_pool h).trans (frames_modRl ..)))
  | bound l x v hb h => exact .moves (FrameMoves.of_frames ((frames_of_pool h).trans (frames_modRl ..)))
  | unbound l b hb hh hw h => exact .moves (h.frames (frames_unboundState l _ s))
  | rebound l b x v u hb hh hw hu h =>
    exact .moves ((hu.frames (frames_unboundState l _ s)).trans
      (FrameMoves.of_frames ((frames_of_pool h).trans (frames_modRl ..))))
  | claimed l b k n hb hw hh hx hn ha h =>
    obtain ⟨cur, f, v, m, o, hk, h⟩ := h
    exact .moves (h.frames frames_claimedState)
  | claimWaits l d hb hh h => exact .moves (FrameMoves.of_frames ((frames_of_pool h).trans (frames_modRl ..)))
  | claimOver l h => exact .moves (FrameMoves.of_frames ((frames_of_pool h).trans (frames_modRl ..)))
  | released l k e hc hh h => exact .moves (h.frames (frames_returnedState l k s))
  | row c₀ c₁ hc hm hn h => exact .row c₀ c₁ hc hm hn (frames_of_pool h)
  | completes c₀ c₁ hc hm hn h =>
    cases h with
    | lost u hk hu h => exact .lost c₀ u hc (hm.slot ▸ hk) (frames_of_pool hu) (frames_of_pool h)
    | current f v a b d u hk hv hch hac ha hb hd hj hu h =>
      exact .completes c₀ c₁ f v a d u hc hm hn hk hv hch hac (frames_of_pool ha) ((PendingSteps.frames hb).trans hd.frames)
        (frames_of_pool hu) (frames_of_pool h)

/-- What a command does to the frames: one of its acts while RSTN is high; nothing; the start-up state; or the end of all work. -/
inductive FrameChange (s t : State) : Prop
  | same (h : t.frames = s.frames)
  | acts (hr : s.rstnLow = false) (h : FrameAct s t)
  | startUp (r : Bool) (h : t.frames = ({ State.reset with rstnLow := r } : State).frames)
  | halted (h : execRstnAsserted s = .next t)

theorem PoolChange.frameChange {c : Instr} {s t : State} (h : PoolChange c s t) : FrameChange s t := by
  cases h with
  | same h => exact .same (frames_of_pool h)
  | acts hr h => exact .acts hr h.frameAct
  | startUp hc r h => exact .startUp r (frames_of_pool h)
  | halted h => exact .halted h

/-- A law of the frames that every change of theirs keeps is kept by every step. -/
theorem step_keeps_frames {P Q : State → Prop} (hP : ∀ {s t : State}, t.frames = s.frames → P s → P t)
    (h : ∀ {s t}, FrameChange s t → P s → Q t) {s t : State} (hs : P s) (ht : step s = .next t) : Q t :=
  step_keeps (fun e => hP (frames_of_pool e)) (fun hc => h hc.frameChange) hs ht

end Sys2Proof.Machine
end

section
/-! SUPPORT. The life of the slots (R6, R7, R22, R30, R47, R48), kept by every step. -/

namespace Sys2Proof.Machine

open Sys2Proof Sys2Proof.Claims

/-! ### The law in two parts: the pool's and the detector's -/

/-- FILLING slots are the lanes' open frames, CURRENT slots the CURRENT pointers, waiting opens the wait list. -/
structure PoolLife (s : State) : Prop where
  filling : ∀ x k, FillingAt s.fpc.slots x k ↔ (s.il.get x).openFrame = some k
  current : ∀ x k, CurrentAt s.fpc.slots x k ↔ s.fpc.current.get x = some k
  waiting : ∀ x, (s.il.get x).pendingOpen.isSome = true ↔ ∃ e, e ∈ s.fpc.waitList ∧ e.source = x
  once : (s.fpc.waitList.map WaitEntry.source).Nodup
  apart : ∀ x, (s.il.get x).pendingOpen.isSome = true → (s.il.get x).openFrame = none

/-- The ANALYSING slot is that of the analysis under way, QUEUED slots stand in the analysis queue, once. -/
structure DetectorLife (s : State) : Prop where
  analysing : ∀ k, AnalysingAt s.fpc.slots k ↔ ∃ c, s.cd.ctx = some c ∧ c.slot = k
  queued : ∀ k, QueuedAt s.fpc.slots k ↔ k ∈ s.cd.queue
  nodup : s.cd.queue.Nodup

theorem lifeLaw_iff (s : State) : LifeLaw s ↔
    (s.rstnLow = false → PoolLife s ∧ DetectorLife s ∧ (s.cd.ctx = none → s.cd.queue = [])) := by
  refine imp_congr_right fun _ => ?_
  constructor
  · rintro ⟨hf, hc, ha, hq, hn, hi, hw, ho, hp⟩
    exact ⟨⟨hf, hc, hw, ho, hp⟩, ⟨ha, hq, hn⟩, hi⟩
  · rintro ⟨⟨hf, hc, hw, ho, hp⟩, ⟨ha, hq, hn⟩, hi⟩
    exact ⟨hf, hc, ha, hq, hn, hi, hw, ho, hp⟩

section
variable {s t : State} (h : t.frames = s.frames)
include h

theorem frames_fillingAt (x : Src) (k : Nat) : FillingAt t.fpc.slots x k ↔ FillingAt s.fpc.slots x k := by
  rw [← fillingAt_bare, frames_slots h, fillingAt_bare]

theorem frames_currentAt (x : Src) (k : Nat) : CurrentAt t.fpc.slots x k ↔ CurrentAt s.fpc.slots x k := by
  rw [← currentAt_bare, frames_slots h, currentAt_bare]

theorem frames_analysingAt (k : Nat) : AnalysingAt t.fpc.slots k ↔ AnalysingAt s.fpc.slots k := by
  rw [← analysingAt_bare, frames_slots h, analysingAt_bare]

theorem frames_queuedAt (k : Nat) : QueuedAt t.fpc.slots k ↔ QueuedAt s.fpc.slots k := by
  rw [← queuedAt_bare, frames_slots h, queuedAt_bare]

theorem PoolLife.congr (hs : PoolLife s) : PoolLife t where
  filling x k := by rw [frames_fillingAt h, frames_openFrame h]; exact hs.filling x k
  current x k := by rw [frames_currentAt h, frames_current h]; exact hs.current x k
  waiting x := by rw [frames_pendingOpen h, frames_waitList h]; exact hs.waiting x
  once := by rw [frames_waitList h]; exact hs.once
  apart x := by rw [frames_pendingOpen h, frames_openFrame h]; exact hs.apart x

theorem DetectorLife.congr (hs : DetectorLife s) : DetectorLife t where
  analysing k := by rw [frames_analysingAt h, frames_ctx h]; exact hs.analysing k
  queued k := by rw [frames_queuedAt h, frames_queue h]; exact hs.queued k
  nodup := by rw [frames_queue h]; exact hs.nodup

theorem LifeLaw.congr (hs : LifeLaw s) : LifeLaw t := by
  rw [lifeLaw_iff] at hs ⊢
  intro hr
  obtain ⟨hp, hd, hi⟩ := hs (by rw [← frames_rstnLow h]; exact hr)
  exact ⟨hp.congr h, hd.congr h, by rw [frames_ctx h, frames_queue h]; exact hi⟩

end

/-! ### Moves of the frames -/

/-- A slot that is neither FILLING, CURRENT, ANALYSING nor QUEUED. -/
def Loose (c : Slot) : Prop := c = .free ∨ ∃ f v h o, c = .analysed false f v h o

theorem Loose.not_fillingAt {xs : List Slot} {k : Nat} {c : Slot} (hc : Loose c) (hk : xs[k]? = some c) (x : Src) :
    ¬ FillingAt xs x k := by
  rintro ⟨q, n, e⟩
  rw [hk] at e
  rcases hc with rfl | ⟨_, _, _, _, rfl⟩ <;> cases e

theorem Loose.not_currentAt {xs : List Slot} {k : Nat} {c : Slot} (hc : Loose c) (hk : xs[k]? = some c) (x : Src) :
    ¬ CurrentAt xs x k := by
  rintro ⟨f, v, n, o, e, -⟩
  rw [hk] at e
  rcases hc with rfl | ⟨_, _, _, _, rfl⟩ <;> cases e

theorem Fillable.loose {x : Src} {k : Nat} {s : State} (h : Fillable x k s) : ∃ c, s.fpc.slots[k]? = some c ∧ Loose c := by
  rcases h with ⟨h, -⟩ | ⟨f, v, o, h, -⟩
  · exact ⟨_, h, .inl rfl⟩
  · exact ⟨_, h, .inr ⟨_, _, _, _, rfl⟩⟩

theorem fillSlot_slots (x : Src) (p : Pts) (k : Nat) (s : State) :
    (fillSlot x p k s).fpc.slots = s.fpc.slots.set k (.filling x p 0) := rfl

theorem fillSlot_current (x : Src) (p : Pts) (k : Nat) (s : State) : (fillSlot x p k s).fpc.current = s.fpc.current := rfl

theorem fillSlot_waitList (x : Src) (p : Pts) (k : Nat) (s : State) : (fillSlot x p k s).fpc.waitList = s.fpc.waitList := rfl

theorem fillSlot_openFrame (x : Src) (p : Pts) (k : Nat) (s : State) (y : Src) :
    ((fillSlot x p k s).il.get y).openFrame = if y = x then some k else (s.il.get y).openFrame := by
  simp only [fillSlot, State.modIl_il, State.setSlot_il, PerSource.get_set]
  split <;> rfl

theorem fillSlot_pendingOpen (x : Src) (p : Pts) (k : Nat) (s : State) (y : Src) :
    ((fillSlot x p k s).il.get y).pendingOpen = if y = x then none else (s.il.get y).pendingOpen := by
  simp only [fillSlot, State.modIl_il, State.setSlot_il, PerSource.get_set]
  split <;> rfl

theorem frames_fillSlot (x : Src) (p : Pts) (k : Nat) (s : State) :
    (fillSlot x p k s).frames = { s.frames with
      slots := s.frames.slots.set k (.filling x p 0)
      openFrame := Function.update s.frames.openFrame x (some k)
      pendingOpen := Function.update s.frames.pendingOpen x none } := by
  simp only [State.frames, pool_fillSlot, fillSlot_slots, map_bare_set]
  rfl

theorem frames_unlist (x : Src) (s : State) :
    (unlist x s).frames = { s.frames with waitList := s.frames.waitList.filter (fun w => w.source ≠ x) } := rfl

theorem mem_unlist {x : Src} {s : State} {e : WaitEntry} :
    e ∈ (unlist x s).fpc.waitList ↔ e ∈ s.fpc.waitList ∧ e.source ≠ x := by
  simp [unlist]

theorem unlist_nodup {x : Src} {s : State} (h : (s.fpc.waitList.map WaitEntry.source).Nodup) :
    ((unlist x s).fpc.waitList.map WaitEntry.source).Nodup :=
  h.sublist (List.filter_sublist.map _)

/-- An open of a lane without an open frame fills a loose slot, and its entry leaves the wait list. -/
theorem PoolLife.fill {s : State} (h : PoolLife s) {x : Src} {p : Pts} {k : Nat} {c : Slot} (ho : (s.il.get x).openFrame = none)
    (hk : s.fpc.slots[k]? = some c) (hc : Loose c) : PoolLife (fillSlot x p k (unlist x s)) := by
  have hnf := hc.not_fillingAt hk
  have hnc := hc.not_currentAt hk
  refine ⟨fun y j => ?_, fun y j => ?_, fun y => ?_, unlist_nodup h.once, fun y => ?_⟩
  · have hj := h.filling y j
    have hk' := hnf y
    have hv : (∃ q n, Slot.filling x p 0 = .filling y q n) ↔ y = x := by simp [eq_comm]
    rw [fillSlot_slots, unlist_slots, fillingAt_set hk, fillSlot_openFrame, unlist_il, hv]
    grind
  · have hj := h.current y j
    have hk' := h.current y k
    rw [fillSlot_slots, unlist_slots, currentAt_set hk]
    rw [fillSlot_current, unlist_current]
    grind
  · have hw := h.waiting y
    simp only [fillSlot_pendingOpen, unlist_il, fillSlot_waitList, mem_unlist]
    grind
  · have ha := h.apart y
    rw [fillSlot_pendingOpen, fillSlot_openFrame, unlist_il]
    grind

/-- A loose slot becomes FREE. -/
theorem PoolLife.free {s : State} (h : PoolLife s) {k : Nat} {c : Slot} (hk : s.fpc.slots[k]? = some c) (hc : Loose c) :
    PoolLife (s.setSlot k .free) := by
  have hnf := hc.not_fillingAt hk
  have hnc := hc.not_currentAt hk
  refine ⟨fun y j => ?_, fun y j => ?_, h.waiting, h.once, h.apart⟩
  · have hj := h.filling y j
    have hk' := h.filling y k
    have := hnf y
    simp only [State.setSlot_fpc, State.setSlot_il, fillingAt_set hk]
    grind
  · have hj := h.current y j
    have hk' := h.current y k
    have := hnc y
    simp only [State.setSlot_fpc, currentAt_set hk]
    grind

/-- A slot that is neither ANALYSING nor QUEUED, set to such a slot. -/
theorem DetectorLife.set {s : State} (h : DetectorLife s) {k : Nat} {c d : Slot} (hk : s.fpc.slots[k]? = some c)
    (hc : ∀ f, c ≠ .analysing f ∧ c ≠ .queued f) (hd : ∀ f, d ≠ .analysing f ∧ d ≠ .queued f) : DetectorLife (s.setSlot k d) := by
  have hna : ¬ AnalysingAt s.fpc.slots k := fun ⟨f, e⟩ => (hc f).1 (Option.some.inj (hk.symm.trans e))
  have hnq : ¬ QueuedAt s.fpc.slots k := fun ⟨f, e⟩ => (hc f).2 (Option.some.inj (hk.symm.trans e))
  refine ⟨fun j => ?_, fun j => ?_, h.nodup⟩
  · have hj := h.analysing j
    have : ¬ ∃ f, d = .analysing f := fun ⟨f, e⟩ => (hd f).1 e
    simp only [State.setSlot_fpc, State.setSlot_cd, analysingAt_set hk]
    grind
  · have hj := h.queued j
    have : ¬ ∃ f, d = .queued f := fun ⟨f, e⟩ => (hd f).2 e
    simp only [State.setSlot_fpc, State.setSlot_cd, queuedAt_set hk]
    grind

theorem Loose.not_detector {c : Slot} (h : Loose c) (f : SealedFrame) : c ≠ .analysing f ∧ c ≠ .queued f := by
  rcases h with rfl | ⟨_, _, _, _, rfl⟩ <;> simp

/-- Every move of the frames keeps the life of the pool. -/
theorem PoolLife.move {s t : State} (h : PoolLife s) (m : FrameMove s t) : PoolLife t := by
  cases m with
  | same e => exact h.congr e
  | serve w k hw hk e =>
    obtain ⟨c, hk, hc⟩ := hk.loose
    exact (h.fill (h.apart _ ((h.waiting _).mpr ⟨w, hw, rfl⟩)) hk hc).congr e
  | free k f v o hk e => exact (h.free hk (.inr ⟨_, _, _, _, rfl⟩)).congr e

/-- A filled slot leaves the detector's life as setting the slot does. -/
theorem DetectorLife.fill {s : State} (h : DetectorLife s) {x : Src} {p : Pts} {k : Nat} {c : Slot}
    (hk : s.fpc.slots[k]? = some c) (hc : Loose c) : DetectorLife (fillSlot x p k s) := by
  have := h.set (d := .filling x p 0) hk hc.not_detector (by simp)
  exact ⟨this.analysing, this.queued, this.nodup⟩

/-- Every move of the frames keeps the life of the detector. -/
theorem DetectorLife.move {s t : State} (h : DetectorLife s) (m : FrameMove s t) : DetectorLife t := by
  cases m with
  | same e => exact h.congr e
  | serve w k hw hk e =>
    obtain ⟨c, hk, hc⟩ := hk.loose
    have hu : DetectorLife (unlist w.source s) := ⟨h.analysing, h.queued, h.nodup⟩
    exact (hu.fill (by simpa using hk) hc).congr e
  | free k f v o hk e => exact (h.set hk (by simp) (by simp)).congr e

theorem FrameMove.detector {s t : State} (m : FrameMove s t) : t.cd.ctx = s.cd.ctx ∧ t.cd.queue = s.cd.queue := by
  cases m with
  | same e => exact ⟨frames_ctx e, frames_queue e⟩
  | serve w k hw hk e => exact ⟨(frames_ctx e :), (frames_queue e :)⟩
  | free k f v o hk e => exact ⟨(frames_ctx e :), (frames_queue e :)⟩

theorem FrameMoves.detector {s t : State} (m : FrameMoves s t) : t.cd.ctx = s.cd.ctx ∧ t.cd.queue = s.cd.queue :=
  m.keeps (P := fun u => u.cd.ctx = s.cd.ctx ∧ u.cd.queue = s.cd.queue)
    (fun _ _ h m => ⟨m.detector.1.trans h.1, m.detector.2.trans h.2⟩) ⟨rfl, rfl⟩

/-! ### Starting an analysis -/

/-- The analysis of the QUEUED slot k has started. -/
def startedState (k : Nat) (rest : List Nat) (f : SealedFrame) (s : State) : State :=
  { s.setSlot k (.analysing f) with cd := { s.cd with queue := rest, ctx := some (startCtx s k f) } }

theorem startAnalysis_busy {s : State} (h : s.cd.ctx ≠ none) : startAnalysis s = s := by
  unfold startAnalysis
  split
  · next hc _ => exact absurd hc h
  · rfl

theorem startAnalysis_empty {s : State} (h : s.cd.queue = []) : startAnalysis s = s := by
  unfold startAnalysis
  split
  · next _ hq => rw [h] at hq; cases hq
  · rfl

theorem pool_startAnalysis {s : State} {k : Nat} {rest : List Nat} {f : SealedFrame} (hc : s.cd.ctx = none)
    (hq : s.cd.queue = k :: rest) (hk : s.fpc.slots[k]? = some (.queued f)) :
    (startAnalysis s).pool = (startedState k rest f s).pool := by
  simp only [startAnalysis, hc, hq, slot_of_getElem? hk, pool_placeRequest]
  rfl

/-- What an idle detector does, with its queue's slots QUEUED: nothing, or it starts on the slot at the head. -/
theorem startAnalysis_queued {s : State} (hq : ∀ k, k ∈ s.cd.queue → QueuedAt s.fpc.slots k) :
    (startAnalysis s = s ∧ (s.cd.ctx = none → s.cd.queue = [])) ∨
    ∃ k rest f, s.cd.ctx = none ∧ s.cd.queue = k :: rest ∧ s.fpc.slots[k]? = some (.queued f) ∧
      (startAnalysis s).pool = (startedState k rest f s).pool := by
  by_cases hc : s.cd.ctx = none
  · match hl : s.cd.queue with
    | [] => exact .inl ⟨startAnalysis_empty hl, fun _ => rfl⟩
    | k :: rest =>
      obtain ⟨f, hk⟩ := hq k (by simp [hl])
      exact .inr ⟨k, rest, f, hc, rfl, hk, pool_startAnalysis hc hl hk⟩
  · exact .inl ⟨startAnalysis_busy hc, fun h => absurd h hc⟩

theorem PoolLife.start {s : State} (h : PoolLife s) (hd : DetectorLife s) : PoolLife (startAnalysis s) := by
  rcases startAnalysis_queued (fun k => (hd.queued k).mpr) with ⟨e, -⟩ | ⟨k, rest, f, -, -, hk, e⟩
  · rw [e]; exact h
  · refine PoolLife.congr (frames_of_pool e) ⟨fun y j => ?_, fun y j => ?_, h.waiting, h.once, h.apart⟩
    · have hj := h.filling y j
      have hk' : ¬ FillingAt s.fpc.slots y k := by rintro ⟨q, n, e⟩; rw [hk] at e; cases e
      simp only [startedState, State.setSlot_fpc, State.setSlot_il, fillingAt_set hk]
      have := h.filling y k
      grind
    · have hj := h.current y j
      have hk' : ¬ CurrentAt s.fpc.slots y k := by rintro ⟨_, _, _, _, e, -⟩; rw [hk] at e; cases e
      simp only [startedState, State.setSlot_fpc, currentAt_set hk]
      have := h.current y k
      grind

theorem DetectorLife.start {s : State} (hd : DetectorLife s) :
    DetectorLife (startAnalysis s) ∧ ((startAnalysis s).cd.ctx = none → (startAnalysis s).cd.queue = []) := by
  rcases startAnalysis_queued (fun k => (hd.queued k).mpr) with ⟨e, hi⟩ | ⟨k, rest, f, hc, hq, hk, e⟩
  · rw [e]; exact ⟨hd, hi⟩
  · have hn := hd.nodup
    rw [hq, List.nodup_cons] at hn
    refine ⟨DetectorLife.congr (frames_of_pool e) ⟨fun j => ?_, fun j => ?_, hn.2⟩, ?_⟩
    · have hj := hd.analysing j
      simp only [hc, reduceCtorEq, false_and, exists_false, iff_false] at hj
      simp only [startedState, State.setSlot_fpc, analysingAt_set hk, Option.some.injEq, exists_eq_left']
      simp only [startCtx]
      grind
    · have hj := hd.queued j
      rw [hq, List.mem_cons] at hj
      simp only [startedState, State.setSlot_fpc, queuedAt_set hk]
      grind
    · rw [pool_ctx e]
      intro h
      cases h

end Sys2Proof.Machine
end

section
/-! SUPPORT. The acts of the commands keep the life of the slots. -/

namespace Sys2Proof.Machine

open Sys2Proof Sys2Proof.Claims

/-! ### Ingest lanes -/

theorem dropWait_openFrame (x : Src) (s : State) (y : Src) : ((dropWait x s).il.get y).openFrame = (s.il.get y).openFrame := by
  simp only [dropWait, State.modIl_il, PerSource.get_set, unlist_il]
  split
  · next h => subst h; rfl
  · rfl

theorem dropWait_pendingOpen (x : Src) (s : State) (y : Src) :
    ((dropWait x s).il.get y).pendingOpen = if y = x then none else (s.il.get y).pendingOpen := by
  simp only [dropWait, State.modIl_il, PerSource.get_set, unlist_il]
  split <;> rfl

theorem dropWait_fpc (x : Src) (s : State) : (dropWait x s).fpc = (unlist x s).fpc := rfl

theorem PoolLife.dropWait {s : State} (h : PoolLife s) (x : Src) : PoolLife (dropWait x s) := by
  refine ⟨fun y j => ?_, h.current, fun y => ?_, unlist_nodup h.once, fun y => ?_⟩
  · rw [dropWait_openFrame]; exact h.filling y j
  · have hw := h.waiting y
    simp only [dropWait_pendingOpen, dropWait_fpc, mem_unlist]
    grind
  · have ha := h.apart y
    rw [dropWait_pendingOpen, dropWait_openFrame]
    grind

theorem DetectorLife.dropWait {s : State} (h : DetectorLife s) (x : Src) : DetectorLife (dropWait x s) :=
  ⟨h.analysing, h.queued, h.nodup⟩

theorem leaveFrame_none {x : Src} {s : State} (h : (s.il.get x).openFrame = none) : leaveFrame x s = s := by
  simp only [leaveFrame, h]

theorem leaveFrame_some {x : Src} {s : State} {k : Nat} (h : (s.il.get x).openFrame = some k) :
    leaveFrame x s = (s.setSlot k .free).modIl x (fun r => { r with openFrame := none }) := by
  simp only [leaveFrame, h]

theorem modIl_openFrame (s : State) (x : Src) (o : Option Nat) (y : Src) :
    ((s.modIl x (fun r => { r with openFrame := o })).il.get y).openFrame = if y = x then o else (s.il.get y).openFrame := by
  rw [State.modIl_il, PerSource.get_set]
  split <;> rfl

theorem modIl_pendingOpen_of_openFrame (s : State) (x : Src) (o : Option Nat) (y : Src) :
    ((s.modIl x (fun r => { r with openFrame := o })).il.get y).pendingOpen = (s.il.get y).pendingOpen := by
  rw [State.modIl_il, PerSource.get_set]
  split
  · next h => subst h; rfl
  · rfl

/-- The FILLING slot of a lane gives way to another slot that is neither FILLING nor CURRENT, and the lane has no open frame. -/
theorem PoolLife.close {s : State} (h : PoolLife s) {x : Src} {k : Nat} (ho : (s.il.get x).openFrame = some k) {c : Slot}
    (hcf : ∀ y p n, c ≠ .filling y p n) (hcc : ∀ f v m o, c ≠ .analysed true f v m o) :
    PoolLife ((s.setSlot k c).modIl x (fun r => { r with openFrame := none })) := by
  obtain ⟨q, m, hk⟩ := (h.filling x k).mpr ho
  have hv : ∀ y, ¬ ∃ p n, c = .filling y p n := fun y ⟨p, n, e⟩ => hcf y p n e
  have hw : ∀ y, ¬ ∃ f v m o, c = .analysed true f v m o ∧ f.source = y := fun y ⟨f, v, m, o, e, _⟩ => hcc f v m o e
  refine ⟨fun y j => ?_, fun y j => ?_, fun y => ?_, h.once, fun y => ?_⟩
  · have hj := h.filling y j
    have hx := h.filling x j
    have hy : FillingAt s.fpc.slots y k → y = x := by
      rintro ⟨q', m', e⟩
      rw [hk] at e
      cases e
      rfl
    rw [modIl_openFrame, State.modIl_fpc, State.setSlot_fpc, fillingAt_set hk, State.setSlot_il]
    have := hv y
    have := h.filling y k
    grind
  · have hj := h.current y j
    have hy : ¬ CurrentAt s.fpc.slots y k := by
      rintro ⟨_, _, _, _, e, -⟩
      rw [hk] at e
      cases e
    rw [State.modIl_fpc, State.setSlot_fpc, currentAt_set hk]
    have := hw y
    have := h.current y k
    grind
  · rw [modIl_pendingOpen_of_openFrame]
    exact h.waiting y
  · have ha := h.apart y
    rw [modIl_pendingOpen_of_openFrame, modIl_openFrame, State.setSlot_il]
    grind

theorem PoolLife.leaveFrame {s : State} (h : PoolLife s) (x : Src) : PoolLife (leaveFrame x s) := by
  cases ho : (s.il.get x).openFrame with
  | none => rw [leaveFrame_none ho]; exact h
  | some k => rw [leaveFrame_some ho]; exact h.close ho (by simp) (by simp)

theorem DetectorLife.leaveFrame {s : State} (h : DetectorLife s) (hp : PoolLife s) (x : Src) : DetectorLife (leaveFrame x s) := by
  cases ho : (s.il.get x).openFrame with
  | none => rw [leaveFrame_none ho]; exact h
  | some k =>
    rw [leaveFrame_some ho]
    obtain ⟨q, m, hk⟩ := (hp.filling x k).mpr ho
    have := h.set (d := .free) hk (by simp) (by simp)
    exact ⟨this.analysing, this.queued, this.nodup⟩

theorem PoolLife.joinWait {s : State} (h : PoolLife s) {x : Src} (tag : Byte) (p : Pts) (due : Stamp)
    (ho : (s.il.get x).openFrame = none) (hp : (s.il.get x).pendingOpen = none) : PoolLife (joinWait x tag p due s) := by
  have hopen : ∀ y, ((Machine.joinWait x tag p due s).il.get y).openFrame = (s.il.get y).openFrame := by
    intro y
    simp only [Machine.joinWait, State.modIl_il, PerSource.get_set]
    split
    · next h => subst h; rfl
    · rfl
  have hpend : ∀ y, ((Machine.joinWait x tag p due s).il.get y).pendingOpen.isSome =
      if y = x then true else (s.il.get y).pendingOpen.isSome := by
    intro y
    simp only [Machine.joinWait, State.modIl_il, PerSource.get_set]
    split <;> rfl
  have hlist : (Machine.joinWait x tag p due s).fpc.waitList = s.fpc.waitList ++ [⟨x, p, due⟩] := rfl
  have hx : ¬ ∃ e, e ∈ s.fpc.waitList ∧ e.source = x := fun he => by
    have := (h.waiting x).mpr he
    rw [hp] at this
    cases this
  refine ⟨fun y j => ?_, h.current, fun y => ?_, ?_, fun y => ?_⟩
  · rw [hopen]; exact h.filling y j
  · have hw := h.waiting y
    simp only [hpend, hlist, List.mem_append, List.mem_singleton]
    by_cases hy : y = x
    · subst hy; simp only [if_true, true_iff]; exact ⟨_, .inr rfl, rfl⟩
    · rw [if_neg hy, hw]
      constructor
      · rintro ⟨e, he, hs⟩; exact ⟨e, .inl he, hs⟩
      · rintro ⟨e, he | rfl, hs⟩
        · exact ⟨e, he, hs⟩
        · exact absurd hs.symm hy
  · rw [hlist, List.map_append, List.nodup_append]
    refine ⟨h.once, by simp, ?_⟩
    intro a ha b hb
    obtain ⟨e, he, rfl⟩ := List.mem_map.mp ha
    obtain rfl : b = x := by simpa using hb
    exact fun hs => hx ⟨e, he, hs⟩
  · have ha := h.apart y
    rw [hpend, hopen]
    grind

theorem DetectorLife.joinWait {s : State} (h : DetectorLife s) (x : Src) (tag : Byte) (p : Pts) (due : Stamp) :
    DetectorLife (joinWait x tag p due s) := ⟨h.analysing, h.queued, h.nodup⟩

/-- A source whose open does not wait has no entry in the wait list. -/
theorem PoolLife.unlist_eq {s : State} (h : PoolLife s) {x : Src} (hp : (s.il.get x).pendingOpen = none) :
    (unlist x s).fpc.waitList = s.fpc.waitList := by
  refine List.filter_eq_self.mpr fun e he => ?_
  simp only [decide_eq_true_eq]
  intro hs
  have := (h.waiting x).mpr ⟨e, he, hs⟩
  rw [hp] at this
  cases this

theorem PoolLife.opened {s : State} (h : PoolLife s) {x : Src} {p : Pts} {k : Nat} {c : Slot} (ho : (s.il.get x).openFrame = none)
    (hp : (s.il.get x).pendingOpen = none) (hk : s.fpc.slots[k]? = some c) (hc : Loose c) : PoolLife (fillSlot x p k s) := by
  refine (h.fill (p := p) ho hk hc).congr ?_
  have : (unlist x s).frames = s.frames := by
    rw [frames_unlist]
    exact congrArg (fun w => ({ s.frames with waitList := w } : PoolView)) (h.unlist_eq hp)
  rw [frames_fillSlot, frames_fillSlot, this]

theorem PoolLife.row {s : State} (h : PoolLife s) {x : Src} {k : Nat} (ho : (s.il.get x).openFrame = some k) :
    PoolLife (s.setSlot k (addRow (s.slot k))) := by
  obtain ⟨q, m, hk⟩ := (h.filling x k).mpr ho
  rw [slot_of_getElem? hk, addRow]
  refine ⟨fun y j => ?_, fun y j => ?_, h.waiting, h.once, h.apart⟩
  · have hj := h.filling y j
    have hv : (∃ p n, Slot.filling x q (m + 1) = .filling y p n) ↔ x = y := by simp
    have hy : FillingAt s.fpc.slots y k ↔ x = y := by
      simp only [FillingAt, hk, Option.some.injEq, Slot.filling.injEq]
      grind
    rw [State.setSlot_fpc, State.setSlot_il, fillingAt_set hk, hv]
    grind
  · have hj := h.current y j
    have hy : ¬ CurrentAt s.fpc.slots y k := by
      rintro ⟨_, _, _, _, e, -⟩
      rw [hk] at e
      cases e
    rw [State.setSlot_fpc, currentAt_set hk]
    have := h.current y k
    grind

theorem DetectorLife.row {s : State} (h : DetectorLife s) (hp : PoolLife s) {x : Src} {k : Nat}
    (ho : (s.il.get x).openFrame = some k) : DetectorLife (s.setSlot k (addRow (s.slot k))) := by
  obtain ⟨q, m, hk⟩ := (hp.filling x k).mpr ho
  rw [slot_of_getElem? hk, addRow]
  exact h.set hk (by simp) (by simp)

theorem PoolLife.seal {s : State} (h : PoolLife s) {x : Src} {k : Nat} (y : Src) (p : Pts)
    (ho : (s.il.get x).openFrame = some k) : PoolLife (sealedState x k y p s) := by
  have := h.close (c := .queued { source := y, number := s.fpc.nextFrame.get x, pts := p, arrival := s.tcu.time }) ho
    (by simp) (by simp)
  exact ⟨this.filling, this.current, this.waiting, this.once, this.apart⟩

theorem DetectorLife.seal {s : State} (h : DetectorLife s) (hp : PoolLife s) {x : Src} {k : Nat} (y : Src) (p : Pts)
    (ho : (s.il.get x).openFrame = some k) : DetectorLife (sealedState x k y p s) := by
  obtain ⟨q, m, hk⟩ := (hp.filling x k).mpr ho
  have hnq : k ∉ s.cd.queue := by
    rw [← h.queued]
    rintro ⟨f, e⟩
    rw [hk] at e
    cases e
  have hna : ¬ AnalysingAt s.fpc.slots k := by
    rintro ⟨f, e⟩
    rw [hk] at e
    cases e
  have hslots : (sealedState x k y p s).fpc.slots =
      s.fpc.slots.set k (.queued { source := y, number := s.fpc.nextFrame.get x, pts := p, arrival := s.tcu.time }) := rfl
  have hqueue : (sealedState x k y p s).cd.queue = s.cd.queue ++ [k] := rfl
  refine ⟨fun j => ?_, fun j => ?_, ?_⟩
  · have hj := h.analysing j
    rw [hslots, analysingAt_set hk]
    change _ ↔ ∃ c, s.cd.ctx = some c ∧ c.slot = j
    grind
  · have hj := h.queued j
    rw [hslots, queuedAt_set hk, hqueue, List.mem_append, List.mem_singleton]
    grind
  · rw [hqueue, List.nodup_append]
    exact ⟨h.nodup, by simp, fun a ha b hb => by
      obtain rfl := List.mem_singleton.mp hb
      exact fun e => hnq (e ▸ ha)⟩

/-! ### The whole pool -/

theorem poolIdle_slots {s : State} (h : poolIdle s = true) : ∀ c, c ∈ s.fpc.slots → c = .free := by
  simp only [poolIdle, Bool.and_eq_true, List.all_eq_true, Bool.not_eq_true', slotUsed_eq_false] at h
  exact h.1.1.1

theorem poolIdle_waitList {s : State} (h : poolIdle s = true) : s.fpc.waitList = [] := by
  simp only [poolIdle, Bool.and_eq_true, List.isEmpty_iff] at h
  exact h.1.1.2

/-- A pool of FREE slots with nobody waiting, no CURRENT frame and no open frame. -/
theorem PoolLife.of_free {s : State} (hs : ∀ c, c ∈ s.fpc.slots → c = .free) (hc : ∀ x, s.fpc.current.get x = none)
    (hw : s.fpc.waitList = []) (ho : ∀ x, (s.il.get x).openFrame = none) (hp : ∀ x, (s.il.get x).pendingOpen = none) :
    PoolLife s := by
  refine ⟨fun x k => ?_, fun x k => ?_, fun x => ?_, ?_, fun x _ => ho x⟩
  · rw [ho]
    simp only [reduceCtorEq, iff_false]
    rintro ⟨p, n, e⟩
    cases hs _ (List.mem_of_getElem? e)
  · rw [hc]
    simp only [reduceCtorEq, iff_false]
    rintro ⟨_, _, _, _, e, -⟩
    cases hs _ (List.mem_of_getElem? e)
  · rw [hp, hw]
    simp
  · rw [hw]
    exact List.nodup_nil

theorem DetectorLife.of_free {s : State} (hs : ∀ c, c ∈ s.fpc.slots → c = .free) (hc : s.cd.ctx = none) (hq : s.cd.queue = []) :
    DetectorLife s := by
  refine ⟨fun k => ?_, fun k => ?_, by rw [hq]; exact List.nodup_nil⟩
  · rw [hc]
    simp only [reduceCtorEq, false_and, exists_false, iff_false]
    rintro ⟨f, e⟩
    cases hs _ (List.mem_of_getElem? e)
  · rw [hq]
    simp only [List.not_mem_nil, iff_false]
    rintro ⟨f, e⟩
    cases hs _ (List.mem_of_getElem? e)

/-- In a pool of FREE slots no lane has an open frame. -/
theorem PoolLife.no_openFrame {s : State} (h : PoolLife s) (hs : ∀ c, c ∈ s.fpc.slots → c = .free) (x : Src) :
    (s.il.get x).openFrame = none := by
  cases ho : (s.il.get x).openFrame with
  | none => rfl
  | some k =>
    obtain ⟨p, n, e⟩ := (h.filling x k).mpr ho
    cases hs _ (List.mem_of_getElem? e)

/-- With an empty wait list no open waits. -/
theorem PoolLife.no_pendingOpen {s : State} (h : PoolLife s) (hw : s.fpc.waitList = []) (x : Src) :
    (s.il.get x).pendingOpen = none := by
  have := h.waiting x
  simpa [hw] using this

theorem PoolLife.plan {s : State} (h : PoolLife s) (hi : poolIdle s = true) (p : Plan) : PoolLife (takePlan p s) :=
  .of_free (by intro c hc; exact (List.mem_replicate.mp hc).2) (by intro x; cases x <;> rfl)
    (show s.fpc.waitList = [] from poolIdle_waitList hi) (h.no_openFrame (poolIdle_slots hi))
    (h.no_pendingOpen (poolIdle_waitList hi))

theorem softResetPart_slots {s : State} : ∀ c, c ∈ (softResetPart s).fpc.slots → c = .free := by
  intro c hc
  obtain ⟨_, -, rfl⟩ := List.mem_map.mp hc
  rfl

theorem PoolLife.softReset (s : State) : PoolLife (softResetPart s) :=
  .of_free softResetPart_slots (by intro x; cases x <;> rfl) rfl (by intro x; cases x <;> rfl) (by intro x; cases x <;> rfl)

/-! ### The completion of an analysis -/

theorem FrameMove.withCtx {s t : State} (m : FrameMove s t) (c : Option AnalysisCtx) :
    FrameMove (withCtx c s) (withCtx c t) := by
  have lift : ∀ {u v : State}, v.frames = u.frames → (Machine.withCtx c v).frames = (Machine.withCtx c u).frames := by
    intro u v e
    exact congrArg (fun p : PoolView => { p with ctx := c }) e
  cases m with
  | same e => exact .same (lift e)
  | serve w k hw hk e => exact .serve w k hw hk (lift e)
  | free k f v o hk e => exact .free k f v o hk (lift e)

theorem FrameMoves.withCtx {s t : State} (m : FrameMoves s t) (c : Option AnalysisCtx) :
    FrameMoves (withCtx c s) (withCtx c t) :=
  m.lift (Machine.withCtx c) fun _ _ m => m.withCtx c

/-- The CURRENT slot of a source, superseded. -/
theorem staleSlots_eq {s : State} (h : PoolLife s) (x : Src) :
    (s.fpc.current.get x = none ∧ staleSlots x s = s.fpc.slots) ∨
    ∃ j f v m o, s.fpc.current.get x = some j ∧ s.fpc.slots[j]? = some (.analysed true f v m o) ∧ f.source = x ∧
      staleSlots x s = s.fpc.slots.set j (.analysed false f v m o) := by
  cases hc : s.fpc.current.get x with
  | none => exact .inl ⟨rfl, by simp only [staleSlots, hc]⟩
  | some j =>
    obtain ⟨f, v, m, o, hj, hx⟩ := (h.current x j).mpr hc
    exact .inr ⟨j, f, v, m, o, rfl, hj, hx, by simp only [staleSlots, hc, slot_of_getElem? hj]⟩

theorem supersede_fpc (x : Src) (k : Nat) (f : SealedFrame) (v : Verdict) (s : State) :
    (supersede x k f v s).fpc = { s.fpc with
      slots := (staleSlots x s).set k (.analysed true f v 0 (boundSet x s)), current := s.fpc.current.set x (some k) } := by
  rw [supersede_eq]

end Sys2Proof.Machine
end

section
/-! O54: the completion of an analysis, and every change of the frames, keep the life of the slots. -/

namespace Sys2Proof.Machine

open Sys2Proof Sys2Proof.Claims

/-! ### The CURRENT slot superseded -/

section
variable {s : State} (h : PoolLife s) (x : Src)
include h

theorem staleSlots_fillingAt (y : Src) (i : Nat) : FillingAt (staleSlots x s) y i ↔ FillingAt s.fpc.slots y i := by
  rcases staleSlots_eq h x with ⟨-, e⟩ | ⟨j, f, v, m, o, -, hj, -, e⟩
  · rw [e]
  · have : ¬ FillingAt s.fpc.slots y j := by rintro ⟨q, n, e⟩; rw [hj] at e; cases e
    rw [e, fillingAt_set hj]
    grind

theorem staleSlots_analysingAt (i : Nat) : AnalysingAt (staleSlots x s) i ↔ AnalysingAt s.fpc.slots i := by
  rcases staleSlots_eq h x with ⟨-, e⟩ | ⟨j, f, v, m, o, -, hj, -, e⟩
  · rw [e]
  · have : ¬ AnalysingAt s.fpc.slots j := by rintro ⟨q, e⟩; rw [hj] at e; cases e
    rw [e, analysingAt_set hj]
    grind

theorem staleSlots_queuedAt (i : Nat) : QueuedAt (staleSlots x s) i ↔ QueuedAt s.fpc.slots i := by
  rcases staleSlots_eq h x with ⟨-, e⟩ | ⟨j, f, v, m, o, -, hj, -, e⟩
  · rw [e]
  · have : ¬ QueuedAt s.fpc.slots j := by rintro ⟨q, e⟩; rw [hj] at e; cases e
    rw [e, queuedAt_set hj]
    grind

theorem staleSlots_currentAt (y : Src) (i : Nat) :
    CurrentAt (staleSlots x s) y i ↔ y ≠ x ∧ s.fpc.current.get y = some i := by
  have hi := h.current y i
  rcases staleSlots_eq h x with ⟨hn, e⟩ | ⟨j, f, v, m, o, hc, hj, hf, e⟩
  · rw [e, hi]
    by_cases hy : y = x
    · subst hy; simp [hn]
    · simp [hy]
  · rw [e, currentAt_set hj, hi]
    have hy : CurrentAt s.fpc.slots y j ↔ x = y := by
      simp only [CurrentAt, hj, Option.some.injEq, Slot.analysed.injEq]
      grind
    have := h.current y j
    by_cases hij : i = j
    · subst hij; simp; grind
    · simp only [hij, if_false]
      by_cases hy : y = x
      · subst hy; simp [hc, Ne.symm hij]
      · simp [hy]

theorem staleSlots_getElem?_analysing {k : Nat} {f : SealedFrame} (hk : s.fpc.slots[k]? = some (.analysing f)) :
    (staleSlots x s)[k]? = some (.analysing f) := by
  rcases staleSlots_eq h x with ⟨-, e⟩ | ⟨j, g, v, m, o, -, hj, -, e⟩
  · rw [e, hk]
  · rw [e, getElem?_set_of_some hj, if_neg, hk]
    rintro rfl
    rw [hk] at hj
    cases hj

end

/-! ### The completion of an analysis -/

theorem PoolLife.supersede {s : State} (h : PoolLife s) {k : Nat} {f : SealedFrame} (v : Verdict)
    (hk : s.fpc.slots[k]? = some (.analysing f)) : PoolLife (supersede f.source k f v s) := by
  have hk' := staleSlots_getElem?_analysing h f.source hk
  have hslots := congrArg Fpc.slots (supersede_fpc f.source k f v s)
  have hcur := congrArg Fpc.current (supersede_fpc f.source k f v s)
  have hwait := congrArg Fpc.waitList (supersede_fpc f.source k f v s)
  have hil : (Machine.supersede f.source k f v s).il = s.il := by rw [supersede_eq]
  refine ⟨fun y i => ?_, fun y i => ?_, fun y => ?_, by rw [hwait]; exact h.once, by rw [hil]; exact h.apart⟩
  · have hf : ¬ FillingAt s.fpc.slots y k := by rintro ⟨q, n, e⟩; rw [hk] at e; cases e
    rw [hslots, fillingAt_set hk', staleSlots_fillingAt h, hil, ← h.filling]
    grind
  · have hv : (∃ g w n o, Slot.analysed true f v 0 (boundSet f.source s) = .analysed true g w n o ∧ g.source = y) ↔
        f.source = y := by simp
    have hc : s.fpc.current.get y ≠ some k := fun e => by
      obtain ⟨_, _, _, _, e, -⟩ := (h.current y k).mpr e
      rw [hk] at e
      cases e
    rw [hslots, currentAt_set hk', staleSlots_currentAt h, hv, hcur, PerSource.get_set]
    grind
  · rw [hil, hwait]; exact h.waiting y

/-- With the analysed slot no longer ANALYSING, no analysis is under way. -/
theorem DetectorLife.supersede {s : State} (h : PoolLife s) (hd : DetectorLife s) {c : AnalysisCtx} {f : SealedFrame}
    (v : Verdict) (hc : s.cd.ctx = some c) (hk : s.fpc.slots[c.slot]? = some (.analysing f)) :
    DetectorLife (withCtx none (supersede f.source c.slot f v s)) := by
  have hk' := staleSlots_getElem?_analysing h f.source hk
  have hslots : (withCtx none (Machine.supersede f.source c.slot f v s)).fpc.slots = _ :=
    congrArg Fpc.slots (supersede_fpc f.source c.slot f v s)
  have hqueue : (withCtx none (Machine.supersede f.source c.slot f v s)).cd.queue = s.cd.queue := by rw [supersede_eq]; rfl
  refine ⟨fun i => ?_, fun i => ?_, by rw [hqueue]; exact hd.nodup⟩
  · have hi := hd.analysing i
    rw [hslots, analysingAt_set hk', staleSlots_analysingAt h, hi, hc]
    simp only [withCtx, reduceCtorEq, false_and, exists_false, iff_false, Option.some.injEq, exists_eq_left']
    grind
  · have hi := hd.queued c.slot
    have hn : ¬ QueuedAt s.fpc.slots c.slot := by rintro ⟨q, e⟩; rw [hk] at e; cases e
    rw [hslots, queuedAt_set hk', staleSlots_queuedAt h, hqueue, ← hd.queued]
    grind

theorem frames_withCtx {s t : State} (c : Option AnalysisCtx) (h : t.frames = s.frames) :
    (withCtx c t).frames = (withCtx c s).frames :=
  congrArg (fun p : PoolView => { p with ctx := c }) h

theorem PoolLife.withCtx {s : State} (h : PoolLife s) (c : Option AnalysisCtx) : PoolLife (withCtx c s) :=
  ⟨h.filling, h.current, h.waiting, h.once, h.apart⟩

theorem FrameMoves.poolLife {s t : State} (m : FrameMoves s t) (h : PoolLife s) : PoolLife t :=
  m.keeps (fun _ _ h m => h.move m) h

theorem FrameMoves.detectorLife {s t : State} (m : FrameMoves s t) (h : DetectorLife s) : DetectorLife t :=
  m.keeps (fun _ _ h m => h.move m) h

theorem FrameMoves.life {s t : State} (m : FrameMoves s t) (h : PoolLife s ∧ DetectorLife s) : PoolLife t ∧ DetectorLife t :=
  ⟨m.poolLife h.1, m.detectorLife h.2⟩

/-- The life of the slots while RSTN is high. -/
def Alive (s : State) : Prop := PoolLife s ∧ DetectorLife s ∧ (s.cd.ctx = none → s.cd.queue = [])

theorem Alive.congr {s t : State} (e : t.frames = s.frames) (h : Alive s) : Alive t :=
  ⟨h.1.congr e, h.2.1.congr e, by rw [frames_ctx e, frames_queue e]; exact h.2.2⟩

theorem Alive.start {s : State} (h : PoolLife s ∧ DetectorLife s) : Alive (startAnalysis s) :=
  ⟨h.1.start h.2, h.2.start⟩

/-- A pool and a detector that live on, with the analysis and the queue as they were. -/
theorem Alive.of_detector {s t : State} (h : Alive s) (hl : PoolLife t ∧ DetectorLife t)
    (hd : t.cd.ctx = s.cd.ctx ∧ t.cd.queue = s.cd.queue) : Alive t :=
  ⟨hl.1, hl.2, by rw [hd.1, hd.2]; exact h.2.2⟩

/-- The analysis under way goes on in its slot. -/
theorem DetectorLife.onward {s : State} (hd : DetectorLife s) {c₀ c₁ : AnalysisCtx} (hc : s.cd.ctx = some c₀)
    (hs : c₁.slot = c₀.slot) : DetectorLife (Machine.withCtx (some c₁) s) := by
  refine ⟨fun k => ?_, hd.queued, hd.nodup⟩
  have := hd.analysing k
  rw [hc] at this
  simpa [Machine.withCtx, hs] using this

/-- What the completion of an analysis leaves, before an idle detector starts. -/
theorem completes_life {s a d : State} (h : Alive s) {c₀ c₁ : AnalysisCtx} {f : SealedFrame} {v : Verdict}
    (hc : s.cd.ctx = some c₀) (hs : c₁.slot = c₀.slot) (hk : s.fpc.slots[c₁.slot]? = some (.analysing f))
    (ha : a.frames = (supersede f.source c₁.slot f v (withCtx (some c₁) s)).frames) (hd : FrameMoves a d) :
    PoolLife (withCtx none d) ∧ DetectorLife (withCtx none d) := by
  have hp : PoolLife (withCtx (some c₁) s) := h.1.withCtx _
  have hdet : DetectorLife (withCtx (some c₁) s) := h.2.1.onward hc hs
  refine (hd.withCtx none).life ⟨?_, ?_⟩
  · exact ((hp.supersede v hk).congr ha).withCtx none
  · exact (DetectorLife.supersede hp hdet v rfl hk).congr (frames_withCtx none ha)

/-! ### Every change of the frames -/

theorem leaveFrame_cd (x : Src) (s : State) : (leaveFrame x s).cd = s.cd := by
  unfold leaveFrame
  split <;> rfl

theorem Alive.act {s t : State} (h : Alive s) (ha : FrameAct s t) : Alive t := by
  obtain ⟨hp, hd, hi⟩ := h
  cases ha with
  | moves m => exact Alive.of_detector ⟨hp, hd, hi⟩ (m.life ⟨hp, hd⟩) m.detector
  | planned p hv hq hidle e =>
    exact Alive.congr e ⟨hp.plan hidle p, .of_free (fun c hc => (List.mem_replicate.mp hc).2) rfl rfl, fun _ => rfl⟩
  | softReset e => exact Alive.congr e ⟨.softReset s, .of_free softResetPart_slots rfl rfl, fun _ => rfl⟩
  | ingestReset x m =>
    refine Alive.of_detector (s := dropWait x (leaveFrame x s)) ⟨(hp.leaveFrame x).dropWait x, ?_, ?_⟩ (m.life ⟨?_, ?_⟩) m.detector
    · exact (hd.leaveFrame hp x).dropWait x
    · exact (show ((leaveFrame x s).cd.ctx = none → (leaveFrame x s).cd.queue = []) by rw [leaveFrame_cd]; exact hi)
    · exact (hp.leaveFrame x).dropWait x
    · exact (hd.leaveFrame hp x).dropWait x
  | opened x p k ho hq hk e =>
    obtain ⟨c, hk, hc⟩ := hk.loose
    exact Alive.congr e ⟨hp.opened ho hq hk hc, hd.fill hk hc, hi⟩
  | waits x tag p due ho hq e => exact Alive.congr e ⟨hp.joinWait tag p due ho hq, hd.joinWait x tag p due, hi⟩
  | waitOver x e => exact Alive.congr e ⟨hp.dropWait x, hd.dropWait x, hi⟩
  | rowWritten x k ho e => exact Alive.congr e ⟨hp.row ho, hd.row hp ho, hi⟩
  | seals x k y p n u ho hk hu e =>
    exact Alive.congr e (Alive.start ⟨(hp.seal y p ho).congr hu, (hd.seal hp y p ho).congr hu⟩)
  | abandoned x k ho m =>
    refine Alive.of_detector (s := leaveFrame x s) ⟨hp.leaveFrame x, hd.leaveFrame hp x, ?_⟩
      (m.life ⟨hp.leaveFrame x, hd.leaveFrame hp x⟩) m.detector
    exact (show ((leaveFrame x s).cd.ctx = none → (leaveFrame x s).cd.queue = []) by rw [leaveFrame_cd]; exact hi)
  | row c₀ c₁ hc hm hn e =>
    exact Alive.congr e ⟨hp.withCtx _, hd.onward hc hm.slot, fun h => (nomatch h)⟩
  | lost c₀ u hc hk hu e =>
    obtain ⟨f, hf⟩ := (hd.analysing c₀.slot).mpr ⟨c₀, hc, rfl⟩
    exact absurd (slot_of_getElem? hf) (hk f)
  | completes c₀ c₁ f v a d u hc hm hn hk hv hch hac ha hmv hu e =>
    have := completes_life ⟨hp, hd, hi⟩ hc hm.slot hk ha hmv
    exact Alive.congr e (Alive.start ⟨this.1.congr hu, this.2.congr hu⟩)

theorem noSlot_startUp : ∀ c, c ∈ ([] : List Slot) → c = .free := fun _ h => absurd h List.not_mem_nil

theorem alive_startUp (r : Bool) : Alive { State.reset with rstnLow := r } :=
  ⟨.of_free noSlot_startUp (by intro x; cases x <;> rfl) rfl (by intro x; cases x <;> rfl) (by intro x; cases x <;> rfl),
    .of_free noSlot_startUp rfl rfl, fun _ => rfl⟩

/-- The fall of RSTN leaves the part held in reset. -/
theorem halted_rstnLow {s t : State} (h : execRstnAsserted s = .next t) : t.rstnLow = true := by
  cases h
  rfl

/-- Every change of the frames keeps the life of the slots. -/
theorem LifeLaw.change {s t : State} (hc : FrameChange s t) (h : LifeLaw s) : LifeLaw t := by
  cases hc with
  | same e => exact h.congr e
  | acts hr ha => exact (lifeLaw_iff t).mpr fun _ => Alive.act ((lifeLaw_iff s).mp h hr) ha
  | startUp r e => exact LifeLaw.congr e ((lifeLaw_iff _).mpr fun _ => alive_startUp r)
  | halted e => exact fun hr => absurd hr (by simp [halted_rstnLow e])

/-- Settles O54: the law's two parts, the pool's and the detector's, through every act on the frames. -/
theorem stepKeepsSlotLife : Obligations.StepKeepsSlotLife := by
  refine ⟨fun s t h ht => step_keeps_frames (fun e h => h.congr e) LifeLaw.change h ht, fun s h hr => ?_⟩
  obtain ⟨hp, hd, -⟩ := (lifeLaw_iff s).mp h hr
  refine ⟨fun x j k p n q m hj hk => ?_, fun j k f v n o f' v' n' o' hj hk hf => ?_, fun j k f g hj hk => ?_⟩
  · have ej := (hp.filling x j).mp ⟨p, n, hj⟩
    have ek := (hp.filling x k).mp ⟨q, m, hk⟩
    exact Option.some.inj (ej.symm.trans ek)
  · have ej := (hp.current f.source j).mp ⟨f, v, n, o, hj, rfl⟩
    have ek := (hp.current f.source k).mp ⟨f', v', n', o', hk, hf.symm⟩
    exact Option.some.inj (ej.symm.trans ek)
  · obtain ⟨c, hc, rfl⟩ := (hd.analysing j).mp ⟨f, hj⟩
    obtain ⟨c', hc', rfl⟩ := (hd.analysing k).mp ⟨g, hk⟩
    rw [Option.some.inj (hc.symm.trans hc')]

end Sys2Proof.Machine
end

section
/-! O55, its first three parts: quotas, verdicts and the plan through every act on the frames. -/

namespace Sys2Proof.Machine

open Sys2Proof Sys2Proof.Claims

/-- What holds of a state, and of it with the detector's queue cut and with the analysis of a QUEUED slot started, holds after an
idle detector has started. -/
theorem startAnalysis_keeps {P : State → Prop} {s : State} (hP : ∀ {u v : State}, v.pool = u.pool → P u → P v) (h : P s)
    (hskip : ∀ rest, P { s with cd := { s.cd with queue := rest } })
    (hstart : ∀ k rest f, s.cd.ctx = none → s.cd.queue = k :: rest → s.fpc.slots[k]? = some (.queued f) → P (startedState k rest f s)) :
    P (startAnalysis s) := by
  rcases startAnalysis_cases s with e | ⟨k, rest, -, -, -, e⟩ | ⟨k, rest, f, hc, hq, hk, -⟩
  · rw [e]; exact h
  · rw [e]; exact hskip rest
  · have hk := getElem?_of_slot hk (by simp)
    exact hP (pool_startAnalysis hc hq hk) (hstart k rest f hc hq hk)

/-! ### Quotas -/

theorem countP_set_le {xs : List Slot} {k : Nat} {v : Slot} {p : Slot → Bool}
    (h : ∀ old, xs[k]? = some old → p v = true → p old = true) : (xs.set k v).countP p ≤ xs.countP p := by
  by_cases hk : k < xs.length
  · have ho : xs[k]? = some xs[k] := List.getElem?_eq_getElem hk
    rw [List.countP_set hk]
    have := h _ ho
    by_cases hv : p v = true
    · have : 0 < xs.countP p := List.countP_pos_iff.mpr ⟨_, List.getElem_mem hk, this hv⟩
      grind
    · simp [hv]
  · rw [List.set_eq_of_length_le (by omega)]

theorem QuotaLaw.congr {s t : State} (e : t.frames = s.frames) (h : QuotaLaw s) : QuotaLaw t := fun x => by
  rw [frames_occupancy e, frames_quota e]
  exact h x

/-- One slot set to FREE, or to a slot of the source it had, keeps every source within its quota. -/
theorem QuotaLaw.set {s t : State} (h : QuotaLaw s) {k : Nat} {v : Slot} (ht : t.fpc.slots = s.fpc.slots.set k v)
    (hp : t.fpc.plan = s.fpc.plan) (hv : ∀ old x, s.fpc.slots[k]? = some old → slotSource v = some x → slotSource old = some x) :
    QuotaLaw t := fun x => by
  have hq : t.quota x = s.quota x := by simp only [State.quota, State.sourcePlan, hp]
  rw [hq, State.occupancy, ht]
  exact (countP_set_le fun old ho hs => by simpa using hv old x ho (by simpa using hs)).trans (h x)

theorem QuotaLaw.fill {s : State} (h : QuotaLaw s) {x : Src} {p : Pts} {k : Nat} (hk : Fillable x k s) :
    QuotaLaw (fillSlot x p k s) := by
  rcases hk with ⟨hk, hx⟩ | ⟨f, v, o, hk, rfl⟩
  · intro y
    have hl := (List.getElem?_eq_some_iff.mp hk)
    obtain ⟨hl, he⟩ := hl
    have hy := h y
    have : (fillSlot x p k s).occupancy y = s.occupancy y + if x = y then 1 else 0 := by
      simp only [State.occupancy, fillSlot_slots, List.countP_set hl, he, slotSource]
      grind
    rw [this]
    change _ ≤ s.quota y
    split
    · next hxy => subst hxy; exact hx
    · exact hy
  · refine h.set (fillSlot_slots ..) rfl fun old y ho hs => ?_
    rw [hk] at ho
    cases ho
    exact hs

theorem QuotaLaw.move {s t : State} (h : QuotaLaw s) (m : FrameMove s t) : QuotaLaw t := by
  cases m with
  | same e => exact h.congr e
  | serve w k hw hk e => exact (QuotaLaw.fill (s := unlist w.source s) h hk).congr e
  | free k f v o hk e => exact (h.set (t := s.setSlot k .free) rfl rfl (by simp [slotSource])).congr e

theorem QuotaLaw.of_free {s : State} (h : ∀ c, c ∈ s.fpc.slots → c = .free) : QuotaLaw s := fun x => by
  rw [State.occupancy, List.countP_eq_zero.mpr]
  · exact Nat.zero_le _
  · intro c hc
    rw [h c hc]
    simp [slotSource]

theorem QuotaLaw.start {s : State} (h : QuotaLaw s) : QuotaLaw (startAnalysis s) :=
  startAnalysis_keeps (fun e h => h.congr (frames_of_pool e)) h (fun _ => h) fun k rest f _ _ hk =>
    h.set (v := .analysing f) rfl rfl (by simp [hk, slotSource])

/-- The frame of the slot j, CURRENT until now, in the slots where source x's CURRENT frame is superseded. -/
theorem staleSlots_cases (x : Src) (s : State) : staleSlots x s = s.fpc.slots ∨
    ∃ j cur f v m o, s.fpc.slots[j]? = some (.analysed cur f v m o) ∧ staleSlots x s = s.fpc.slots.set j (.analysed false f v m o) := by
  unfold staleSlots
  split
  · next j _ =>
    split
    · next cur f v m o hj => exact .inr ⟨j, cur, f, v, m, o, getElem?_of_slot hj (by simp), rfl⟩
    · exact .inl rfl
  · exact .inl rfl

/-- The slot of the completing analysis is that of no CURRENT frame. -/
theorem staleSlots_analysing {x : Src} {s : State} {k : Nat} {f : SealedFrame} (hk : s.fpc.slots[k]? = some (.analysing f)) :
    (staleSlots x s)[k]? = some (.analysing f) := by
  rcases staleSlots_cases x s with e | ⟨j, cur, g, v, m, o, hj, e⟩
  · rw [e, hk]
  · rw [e, getElem?_set_of_some hj, if_neg, hk]
    rintro rfl
    rw [hk] at hj
    cases hj

theorem QuotaLaw.supersede {s : State} (h : QuotaLaw s) {k : Nat} {f : SealedFrame} (v : Verdict)
    (hk : s.fpc.slots[k]? = some (.analysing f)) : QuotaLaw (supersede f.source k f v s) := by
  have hstale : QuotaLaw { s with fpc := { s.fpc with slots := staleSlots f.source s } } := by
    rcases staleSlots_cases f.source s with e | ⟨j, cur, g, w, m, o, hj, e⟩
    · exact fun y => by simpa only [State.occupancy, e] using h y
    · exact h.set (v := .analysed false g w m o) e rfl (by simp [hj, slotSource])
  rw [supersede_eq]
  exact hstale.set (v := .analysed true f v 0 (boundSet f.source s)) rfl rfl (by simp [staleSlots_analysing hk, slotSource])

theorem leaveFrame_slots (x : Src) (s : State) :
    (leaveFrame x s).fpc.slots = match (s.il.get x).openFrame with
      | some k => s.fpc.slots.set k .free
      | none => s.fpc.slots := by
  cases ho : (s.il.get x).openFrame with
  | none => rw [leaveFrame_none ho]
  | some k => rw [leaveFrame_some ho]; rfl

theorem leaveFrame_plan (x : Src) (s : State) : (leaveFrame x s).fpc.plan = s.fpc.plan := by
  cases ho : (s.il.get x).openFrame with
  | none => rw [leaveFrame_none ho]
  | some k => rw [leaveFrame_some ho]; rfl

theorem QuotaLaw.leaveFrame {s : State} (h : QuotaLaw s) (x : Src) : QuotaLaw (leaveFrame x s) := by
  have hs := leaveFrame_slots x s
  cases ho : (s.il.get x).openFrame with
  | none => rw [leaveFrame_none ho]; exact h
  | some k =>
    rw [ho] at hs
    exact h.set (v := .free) hs (leaveFrame_plan x s) (by simp [slotSource])

theorem slotSource_addRow (c : Slot) : slotSource (addRow c) = slotSource c := by cases c <;> rfl

theorem FrameMoves.quotaLaw {s t : State} (m : FrameMoves s t) (h : QuotaLaw s) : QuotaLaw t := m.keeps (fun _ _ h m => h.move m) h

theorem QuotaLaw.act {s t : State} (h : QuotaLaw s) (ha : FrameAct s t) : QuotaLaw t := by
  cases ha with
  | moves m => exact m.quotaLaw h
  | planned p hv hq hi e => exact (QuotaLaw.of_free fun c hc => (List.mem_replicate.mp hc).2).congr e
  | softReset e => exact (QuotaLaw.of_free softResetPart_slots).congr e
  | ingestReset x m => exact m.quotaLaw (h.leaveFrame x)
  | opened x p k ho hp hk e => exact (h.fill hk).congr e
  | waits x tag p due ho hp e => exact QuotaLaw.congr e h
  | waitOver x e => exact QuotaLaw.congr e h
  | rowWritten x k ho e =>
    refine (h.set (t := s.setSlot k (addRow (s.slot k))) rfl rfl fun old y hk hs => ?_).congr e
    rwa [slot_of_getElem? hk, slotSource_addRow] at hs
  | seals x k y p n u ho hk hu e =>
    have : QuotaLaw (sealedState x k y p s) :=
      h.set (v := .queued { source := y, number := s.fpc.nextFrame.get x, pts := p, arrival := s.tcu.time }) rfl rfl
        (by simp [hk, slotSource])
    exact (this.congr hu).start.congr e
  | abandoned x k ho m => exact m.quotaLaw (h.leaveFrame x)
  | row c₀ c₁ hc hm hn e => exact QuotaLaw.congr e h
  | lost c₀ u hc hk hu e => exact (QuotaLaw.congr hu h).start.congr e
  | completes c₀ c₁ f v a d u hc hm hn hk hv hch hac ha hd hu e =>
    have hd' : QuotaLaw d := hd.quotaLaw (QuotaLaw.congr ha (QuotaLaw.supersede (s := withCtx (some c₁) s) h v hk))
    exact (QuotaLaw.congr hu hd').start.congr e

theorem halted_fpc {s t : State} (h : execRstnAsserted s = .next t) :
    t.fpc.slots = s.fpc.slots ∧ t.fpc.plan = s.fpc.plan ∧ t.cd.ctx = none := by
  cases h
  exact ⟨rfl, rfl, rfl⟩

theorem QuotaLaw.change {s t : State} (hc : FrameChange s t) (h : QuotaLaw s) : QuotaLaw t := by
  cases hc with
  | same e => exact h.congr e
  | acts hr ha => exact h.act ha
  | startUp r e => exact (QuotaLaw.of_free noSlot_startUp).congr e
  | halted e =>
    obtain ⟨hs, hp, -⟩ := halted_fpc e
    intro x
    simpa only [State.occupancy, State.quota, State.sourcePlan, hs, hp] using h x

end Sys2Proof.Machine
end

section
/-! O55: verdicts, the plan, and the analysis under way through every act on the frames. -/

namespace Sys2Proof.Machine

open Sys2Proof Sys2Proof.Claims

/-! ### What holds of every frame with its verdict -/

/-- Q holds of the frame and verdict of an analysed slot. -/
def Judged (Q : SealedFrame → Verdict → Prop) : Slot → Prop
  | .analysed _ f v _ _ => Q f v
  | _ => True

/-- Q holds of every frame that has a verdict. -/
def AllJudged (Q : SealedFrame → Verdict → Prop) (s : State) : Prop := ∀ c, c ∈ s.fpc.slots → Judged Q c

theorem judged_bare (Q : SealedFrame → Verdict → Prop) (c : Slot) : Judged Q (bare c) ↔ Judged Q c := by cases c <;> rfl

theorem allJudged_iff (Q : SealedFrame → Verdict → Prop) (s : State) : AllJudged Q s ↔
    ∀ (k : Nat) (cur : Bool) (f : SealedFrame) (v : Verdict) (h : Nat) (o : PerRL Bool),
      s.fpc.slots[k]? = some (.analysed cur f v h o) → Q f v := by
  constructor
  · intro h k cur f v n o hk
    exact h _ (List.mem_of_getElem? hk)
  · intro h c hc
    obtain ⟨k, hk⟩ := List.getElem?_of_mem hc
    cases c with
    | analysed cur f v n o => exact h k cur f v n o hk
    | _ => trivial

section
variable {Q : SealedFrame → Verdict → Prop}

theorem AllJudged.congr {s t : State} (e : t.frames = s.frames) (h : AllJudged Q s) : AllJudged Q t := by
  intro c hc
  have : bare c ∈ s.fpc.slots.map bare := frames_slots e ▸ List.mem_map_of_mem hc
  obtain ⟨d, hd, hb⟩ := List.mem_map.mp this
  rw [← judged_bare, ← hb, judged_bare]
  exact h d hd

theorem AllJudged.set {s t : State} (h : AllJudged Q s) {k : Nat} {v : Slot} (ht : t.fpc.slots = s.fpc.slots.set k v)
    (hv : Judged Q v) : AllJudged Q t := by
  intro c hc
  rw [ht] at hc
  rcases List.mem_or_eq_of_mem_set hc with hc | rfl
  · exact h c hc
  · exact hv

theorem AllJudged.of_free {s : State} (h : ∀ c, c ∈ s.fpc.slots → c = .free) : AllJudged Q s := fun c hc => by
  rw [h c hc]
  trivial

theorem AllJudged.move {s t : State} (h : AllJudged Q s) (m : FrameMove s t) : AllJudged Q t := by
  cases m with
  | same e => exact h.congr e
  | serve w k hw hk e => exact (AllJudged.set h (t := fillSlot w.source w.pts k (unlist w.source s)) rfl trivial).congr e
  | free k f v o hk e => exact (h.set (t := s.setSlot k .free) rfl trivial).congr e

theorem FrameMoves.allJudged {s t : State} (m : FrameMoves s t) (h : AllJudged Q s) : AllJudged Q t :=
  m.keeps (fun _ _ h m => h.move m) h

theorem AllJudged.start {s : State} (h : AllJudged Q s) : AllJudged Q (startAnalysis s) :=
  startAnalysis_keeps (fun e h => h.congr (frames_of_pool e)) h (fun _ => h) fun k rest f _ _ _ =>
    h.set (t := startedState k rest f s) (v := .analysing f) rfl trivial

theorem AllJudged.leaveFrame {s : State} (h : AllJudged Q s) (x : Src) : AllJudged Q (leaveFrame x s) := by
  have hs := leaveFrame_slots x s
  cases ho : (s.il.get x).openFrame with
  | none => rw [leaveFrame_none ho]; exact h
  | some k =>
    rw [ho] at hs
    exact h.set (v := .free) hs trivial

theorem AllJudged.supersede {s : State} (h : AllJudged Q s) {x : Src} {k : Nat} {f : SealedFrame} {v : Verdict} (hQ : Q f v) :
    AllJudged Q (supersede x k f v s) := by
  have hstale : AllJudged Q { s with fpc := { s.fpc with slots := staleSlots x s } } := by
    rcases staleSlots_cases x s with e | ⟨j, cur, g, w, m, o, hj, e⟩
    · intro c hc
      exact h c (e ▸ hc)
    · exact h.set e (h _ (List.mem_of_getElem? hj) : Q g w)
  rw [supersede_eq]
  exact hstale.set (v := .analysed true f v 0 (boundSet x s)) rfl hQ

theorem judged_addRow (c : Slot) (h : Judged Q c) : Judged Q (addRow c) := by cases c <;> exact h

/-- What holds of every frame with its verdict, and of each that an act makes CURRENT, holds after the act. -/
theorem AllJudged.act {s t : State} (h : AllJudged Q s) (ha : FrameAct s t)
    (hnew : ∀ c₀ c₁ f v, s.cd.ctx = some c₀ → Measured c₀ c₁ → s.fpc.slots[c₁.slot]? = some (.analysing f) → Consistent v →
      v.changed = c₁.changed → v.active = c₁.active → Q f v) : AllJudged Q t := by
  cases ha with
  | moves m => exact m.allJudged h
  | planned p hv hq hi e => exact (AllJudged.of_free fun c hc => (List.mem_replicate.mp hc).2).congr e
  | softReset e => exact (AllJudged.of_free softResetPart_slots).congr e
  | ingestReset x m => exact m.allJudged (h.leaveFrame x)
  | opened x p k ho hp hk e => exact (h.set (fillSlot_slots x p k s) trivial).congr e
  | waits x tag p due ho hp e => exact AllJudged.congr e h
  | waitOver x e => exact AllJudged.congr e h
  | rowWritten x k ho e =>
    refine AllJudged.congr e ?_
    by_cases hk : k < s.fpc.slots.length
    · refine h.set (t := s.setSlot k (addRow (s.slot k))) rfl (judged_addRow _ (h _ ?_))
      rw [slot_of_getElem? (List.getElem?_eq_getElem hk)]
      exact List.getElem_mem hk
    · intro c hc
      rw [State.setSlot_fpc, List.set_eq_of_length_le (by omega)] at hc
      exact h c hc
  | seals x k y p n u ho hk hu e =>
    exact ((AllJudged.set h (t := sealedState x k y p s) rfl trivial).congr hu).start.congr e
  | abandoned x k ho m => exact m.allJudged (h.leaveFrame x)
  | row c₀ c₁ hc hm hn e => exact AllJudged.congr e h
  | lost c₀ u hc hk hu e => exact (AllJudged.congr hu h).start.congr e
  | completes c₀ c₁ f v a d u hc hm hn hk hv hch hac ha hd hu e =>
    have hs : AllJudged Q (Machine.supersede f.source c₁.slot f v (withCtx (some c₁) s)) :=
      AllJudged.supersede (s := withCtx (some c₁) s) h (hnew c₀ c₁ f v hc hm hk hv hch hac)
    exact (AllJudged.congr hu (hd.allJudged (hs.congr ha))).start.congr e

end

/-! ### The analysis under way -/

/-- An act leaves no analysis under way, the one there was, the one there was with a row more measured, or one just started. -/
theorem startAnalysis_ctx (s : State) : (startAnalysis s).cd.ctx = s.cd.ctx ∨
    ∃ k f, s.fpc.slots[k]? = some (.queued f) ∧ (startAnalysis s).cd.ctx = some (startCtx s k f) := by
  rcases startAnalysis_cases s with e | ⟨k, rest, -, -, -, e⟩ | ⟨k, rest, f, hc, hq, hk, -⟩
  · rw [e]; exact .inl rfl
  · rw [e]; exact .inl rfl
  · have hk := getElem?_of_slot hk (by simp)
    exact .inr ⟨k, f, hk, pool_ctx (pool_startAnalysis hc hq hk)⟩

/-- The analysis under way counts no more changed tiles than active ones. -/
def CountsLaw (s : State) : Prop := ∀ c, s.cd.ctx = some c → c.changed ≤ c.active

theorem CountsLaw.of_ctx {s t : State} (h : CountsLaw s) (e : t.cd.ctx = s.cd.ctx) : CountsLaw t := by
  simpa only [CountsLaw, e] using h

theorem CountsLaw.of_none {s : State} (h : s.cd.ctx = none) : CountsLaw s := by simp [CountsLaw, h]

theorem CountsLaw.start {s : State} (h : CountsLaw s) : CountsLaw (startAnalysis s) := by
  rcases startAnalysis_ctx s with e | ⟨k, f, -, e⟩
  · exact h.of_ctx e
  · intro c hc
    cases e.symm.trans hc
    exact Nat.le_refl 0

theorem CountsLaw.act {s t : State} (h : CountsLaw s) (ha : FrameAct s t) : CountsLaw t := by
  cases ha with
  | moves m => exact h.of_ctx m.detector.1
  | planned p hv hq hi e => exact .of_none (frames_ctx e)
  | softReset e => exact .of_none (frames_ctx e)
  | ingestReset x m => exact h.of_ctx (m.detector.1.trans (congrArg Detector.ctx (leaveFrame_cd x s)))
  | opened x p k ho hp hk e => exact h.of_ctx (frames_ctx e :)
  | waits x tag p due ho hp e => exact h.of_ctx (frames_ctx e :)
  | waitOver x e => exact h.of_ctx (frames_ctx e :)
  | rowWritten x k ho e => exact h.of_ctx (frames_ctx e :)
  | seals x k y p n u ho hk hu e => exact (h.of_ctx (frames_ctx hu :)).start.of_ctx (frames_ctx e)
  | abandoned x k ho m => exact h.of_ctx (m.detector.1.trans (congrArg Detector.ctx (leaveFrame_cd x s)))
  | row c₀ c₁ hc hm hn e =>
    intro c hct
    rw [frames_ctx e] at hct
    cases hct
    exact hm.changed (h c₀ hc)
  | lost c₀ u hc hk hu e => exact (CountsLaw.of_none (frames_ctx hu)).start.of_ctx (frames_ctx e)
  | completes c₀ c₁ f v a d u hc hm hn hk hv hch hac ha hd hu e =>
    exact (CountsLaw.of_none (frames_ctx hu)).start.of_ctx (frames_ctx e)

/-! ### Verdicts -/

/-- A verdict as FrameLaw has it. -/
def Sound (_ : SealedFrame) (v : Verdict) : Prop :=
  (v.cls = .hold → v.mask = 0) ∧
  ((v.flags.first = true ∨ v.flags.cue = true ∨ v.flags.chapter = true) → v.cls = .scene) ∧ v.changed ≤ v.active

theorem frameLaw_iff (s : State) : FrameLaw s ↔ AllJudged Sound s ∧ CountsLaw s := and_congr_left' (allJudged_iff Sound s).symm

theorem FrameLaw.congr {s t : State} (e : t.frames = s.frames) (h : FrameLaw s) : FrameLaw t := by
  obtain ⟨hs, hc⟩ := (frameLaw_iff s).mp h
  exact (frameLaw_iff t).mpr ⟨hs.congr e, hc.of_ctx (frames_ctx e)⟩

theorem FrameLaw.change {s t : State} (hc : FrameChange s t) (h : FrameLaw s) : FrameLaw t := by
  cases hc with
  | same e => exact h.congr e
  | acts hr ha =>
    obtain ⟨hs, hc⟩ := (frameLaw_iff s).mp h
    refine (frameLaw_iff t).mpr ⟨hs.act ha fun c₀ c₁ f v hctx hm _ hv hch hac => ?_, hc.act ha⟩
    exact ⟨hv.1, hv.2, by rw [hch, hac]; exact hm.changed (hc c₀ hctx)⟩
  | startUp r e => exact FrameLaw.congr e ((frameLaw_iff _).mpr ⟨.of_free noSlot_startUp, .of_none rfl⟩)
  | halted e =>
    obtain ⟨hslots, -, hctx⟩ := halted_fpc e
    exact (frameLaw_iff t).mpr ⟨fun c hc => ((frameLaw_iff s).mp h).1 c (hslots ▸ hc), .of_none hctx⟩

/-! ### The plan -/

/-- The plan and the number of slots are as they were. -/
def SamePlan (s t : State) : Prop := t.fpc.plan = s.fpc.plan ∧ t.fpc.slots.length = s.fpc.slots.length

theorem SamePlan.trans {s t u : State} (h : SamePlan s t) (h' : SamePlan t u) : SamePlan s u :=
  ⟨h'.1.trans h.1, h'.2.trans h.2⟩

theorem SamePlan.of_frames {s t : State} (e : t.frames = s.frames) : SamePlan s t := ⟨frames_plan e, frames_length e⟩

theorem SamePlan.to {s u t : State} (e : t.frames = u.frames) (h : SamePlan s u) : SamePlan s t := h.trans (.of_frames e)

theorem SamePlan.move {s t : State} (m : FrameMove s t) : SamePlan s t := by
  cases m with
  | same e => exact .of_frames e
  | serve w k hw hk e => exact ⟨(frames_plan e :), by rw [frames_length e, fillSlot_slots, List.length_set]; rfl⟩
  | free k f v o hk e => exact ⟨(frames_plan e :), by rw [frames_length e, State.setSlot_fpc, List.length_set]⟩

theorem FrameMoves.samePlan {s t : State} (m : FrameMoves s t) : SamePlan s t :=
  m.keeps (P := SamePlan s) (fun _ _ h m => h.trans (.move m)) ⟨rfl, rfl⟩

theorem SamePlan.start (s : State) : SamePlan s (startAnalysis s) :=
  startAnalysis_keeps (P := SamePlan s) (fun e h => h.trans (.of_frames (frames_of_pool e))) ⟨rfl, rfl⟩ (fun _ => ⟨rfl, rfl⟩)
    fun _ _ _ _ _ _ => ⟨rfl, List.length_set⟩

theorem SamePlan.leaveFrame (x : Src) (s : State) : SamePlan s (leaveFrame x s) := by
  refine ⟨leaveFrame_plan x s, ?_⟩
  rw [leaveFrame_slots]
  split
  · exact List.length_set
  · rfl

theorem SamePlan.supersede (x : Src) (k : Nat) (f : SealedFrame) (v : Verdict) (s : State) :
    SamePlan s (supersede x k f v s) := by
  rw [supersede_eq]
  refine ⟨rfl, List.length_set.trans ?_⟩
  rcases staleSlots_cases x s with e | ⟨j, cur, g, w, m, o, hj, e⟩
  · rw [e]
  · rw [e, List.length_set]

/-- An act keeps the plan and the number of slots, or takes a valid plan. -/
theorem FrameAct.plan {s t : State} (ha : FrameAct s t) : SamePlan s t ∨
    ∃ p, planValid p s.ms = true ∧ (∀ x, (p.source.get x).enabled = false → (p.source.get x).quota = 0) ∧
      t.frames = (takePlan p s).frames := by
  cases ha with
  | moves m => exact .inl m.samePlan
  | planned p hv hq hi e => exact .inr ⟨p, hv, hq, e⟩
  | softReset e => exact .inl (.to e ⟨rfl, List.length_map _⟩)
  | ingestReset x m => exact .inl ((SamePlan.leaveFrame x s).trans m.samePlan)
  | opened x p k ho hp hk e => exact .inl (.to e ⟨rfl, List.length_set⟩)
  | waits x tag p due ho hp e => exact .inl (.to e ⟨rfl, rfl⟩)
  | waitOver x e => exact .inl (.to e ⟨rfl, rfl⟩)
  | rowWritten x k ho e => exact .inl (.to e ⟨rfl, List.length_set⟩)
  | seals x k y p n u ho hk hu e =>
    exact .inl ((SamePlan.to (s := s) hu ⟨rfl, List.length_set⟩).trans (.to e (.start u)))
  | abandoned x k ho m => exact .inl ((SamePlan.leaveFrame x s).trans m.samePlan)
  | row c₀ c₁ hc hm hn e => exact .inl (.to e ⟨rfl, rfl⟩)
  | lost c₀ u hc hk hu e => exact .inl ((SamePlan.to (s := s) hu ⟨rfl, rfl⟩).trans (.to e (.start u)))
  | completes c₀ c₁ f v a d u hc hm hn hk hv hch hac ha hd hu e =>
    have h₁ : SamePlan s a :=
      (SamePlan.supersede f.source c₁.slot f v (withCtx (some c₁) s)).trans (.of_frames ha)
    have h₂ : SamePlan d t := .trans (t := withCtx none d) ⟨rfl, rfl⟩ ((SamePlan.of_frames hu).trans ((SamePlan.start u).trans (.of_frames e)))
    exact .inl (h₁.trans (hd.samePlan.trans h₂))

theorem PlanLaw.of_samePlan {s t : State} (h : PlanLaw s) (e : SamePlan s t) : PlanLaw t := by
  obtain ⟨hp, hl⟩ := e
  refine ⟨fun hn => ?_, fun p hpl => ?_⟩
  · rw [hp] at hn
    simpa [h.1 hn] using hl
  · rw [hp] at hpl
    rw [hl]
    exact h.2 p hpl

theorem planValid_slots {p : Plan} {m : Scheduler} (h : planValid p m = true) : 6 ≤ p.slots ∧ p.slots ≤ 32 := by
  simp only [planValid, Bool.and_eq_true, decide_eq_true_eq] at h
  exact h.1.1.1.1

theorem planValid_source {p : Plan} {m : Scheduler} (h : planValid p m = true) {x : Src} (he : (p.source.get x).enabled = true) :
    1 ≤ (p.source.get x).cols ∧ (p.source.get x).cols ≤ 32 ∧ 1 ≤ (p.source.get x).rows ∧ (p.source.get x).rows ≤ 20 ∧
      3 ≤ (p.source.get x).quota ∧ (p.source.get x).quota ≤ p.slots := by
  simp only [planValid, Bool.and_eq_true] at h
  have hx := List.all_eq_true.mp h.1.1.2 x (by cases x <;> simp [srcAll])
  simpa [sourcePlanValid, he] using hx

theorem planLaw_takePlan {p : Plan} {s : State} (h : planValid p s.ms = true)
    (hq : ∀ x, (p.source.get x).enabled = false → (p.source.get x).quota = 0) : PlanLaw (takePlan p s) := by
  refine ⟨fun hn => (nomatch hn), fun p' hp => ?_⟩
  cases hp
  exact ⟨List.length_replicate, (planValid_slots h).1, (planValid_slots h).2, fun x => ⟨planValid_source h, hq x⟩⟩

theorem PlanLaw.act {s t : State} (h : PlanLaw s) (ha : FrameAct s t) : PlanLaw t := by
  rcases ha.plan with e | ⟨p, hv, hq, e⟩
  · exact h.of_samePlan e
  · exact (planLaw_takePlan hv hq).of_samePlan (.of_frames e)

theorem PlanLaw.change {s t : State} (hc : FrameChange s t) (h : PlanLaw s) : PlanLaw t := by
  cases hc with
  | same e => exact h.of_samePlan (.of_frames e)
  | acts hr ha => exact h.act ha
  | startUp r e => exact PlanLaw.of_samePlan (s := { State.reset with rstnLow := r }) ⟨fun _ => rfl, fun p hp => (nomatch hp)⟩ (.of_frames e)
  | halted e =>
    obtain ⟨hs, hp, -⟩ := halted_fpc e
    exact h.of_samePlan ⟨hp, congrArg List.length hs⟩

end Sys2Proof.Machine
end

section
/-! O55: the analysis under way is that of its ANALYSING frame in its source's geometry (R47, R50, R63). -/

namespace Sys2Proof.Machine

open Sys2Proof Sys2Proof.Claims

/-! ### What the laws say of a slot in use -/

/-- A source with a slot in use is enabled in the plan in force, and its geometry is in range. -/
theorem geometry_of_used {s : State} (hp : PlanLaw s) (hq : QuotaLaw s) {k : Nat} {c : Slot} {x : Src}
    (hk : s.fpc.slots[k]? = some c) (hx : slotSource c = some x) :
    1 ≤ s.cols x ∧ s.cols x ≤ 32 ∧ 1 ≤ s.rows x ∧ s.rows x ≤ 20 := by
  have hocc : 0 < s.occupancy x := List.countP_pos_iff.mpr ⟨c, List.mem_of_getElem? hk, by simp [hx]⟩
  have hquota : 0 < s.quota x := Nat.lt_of_lt_of_le hocc (hq x)
  cases hpl : s.fpc.plan with
  | none => simp [State.quota, State.sourcePlan, hpl] at hquota
  | some p =>
    obtain ⟨-, -, -, hs⟩ := hp.2 p hpl
    have hqx : s.quota x = (p.source.get x).quota := by simp [State.quota, State.sourcePlan, hpl]
    have hcx : s.cols x = (p.source.get x).cols := by simp [State.cols, State.sourcePlan, hpl]
    have hrx : s.rows x = (p.source.get x).rows := by simp [State.rows, State.sourcePlan, hpl]
    cases he : (p.source.get x).enabled with
    | false => have := (hs x).2 he; omega
    | true =>
      obtain ⟨h₁, h₂, h₃, h₄, -⟩ := (hs x).1 he
      rw [hcx, hrx]
      exact ⟨h₁, h₂, h₃, h₄⟩

theorem cols_mul_rows_le {c r : Nat} (hc : c ≤ 32) (hr : r ≤ 20) : c * r ≤ 640 := Nat.mul_le_mul hc hr

/-! ### The analysis under way -/

/-- The analysis c is of the frame in its ANALYSING slot, in its source's geometry, awaits a row, and has counted at most the tiles of
the rows before. -/
def CtxOf (s : State) (c : AnalysisCtx) : Prop :=
  (∃ f, s.fpc.slots[c.slot]? = some (.analysing f) ∧ f.source = c.source ∧ f.number = c.number ∧ f.arrival = c.arrival) ∧
  c.cols = s.cols c.source ∧ c.rows = s.rows c.source ∧ c.nextRow < c.rows ∧ c.active ≤ c.nextRow * c.cols

def CtxLaw (s : State) : Prop := ∀ c, s.cd.ctx = some c → CtxOf s c

/-- The geometry bounds an analysed frame's active count. -/
def WithinGrid (s : State) (f : SealedFrame) (v : Verdict) : Prop := v.active ≤ s.cols f.source * s.rows f.source ∧ v.active ≤ 640

theorem analysisLaw_iff (s : State) : AnalysisLaw s ↔ CtxLaw s ∧ AllJudged (WithinGrid s) s :=
  and_congr_right' (allJudged_iff (WithinGrid s) s).symm

theorem CtxOf.of_slot {s t : State} {c : AnalysisCtx} (h : CtxOf s c) (hp : t.fpc.plan = s.fpc.plan)
    (hk : ∀ f, s.fpc.slots[c.slot]? = some (.analysing f) → t.fpc.slots[c.slot]? = some (.analysing f)) : CtxOf t c := by
  obtain ⟨⟨f, hf, hid⟩, hc, hr, hn, ha⟩ := h
  have hcols : t.cols c.source = s.cols c.source := by simp only [State.cols, State.sourcePlan, hp]
  have hrows : t.rows c.source = s.rows c.source := by simp only [State.rows, State.sourcePlan, hp]
  exact ⟨⟨f, hk f hf, hid⟩, hc.trans hcols.symm, hr.trans hrows.symm, hn, ha⟩

theorem bare_eq_analysing {c : Slot} {f : SealedFrame} (h : bare c = .analysing f) : c = .analysing f := by
  cases c <;> simp_all [bare]

theorem frames_analysing {s t : State} (e : t.frames = s.frames) {k : Nat} {f : SealedFrame}
    (hk : s.fpc.slots[k]? = some (.analysing f)) : t.fpc.slots[k]? = some (.analysing f) := by
  have := frames_getElem? e k
  rw [hk] at this
  obtain ⟨c, hc, hb⟩ := Option.map_eq_some_iff.mp this
  rw [hc, bare_eq_analysing hb]

theorem CtxLaw.congr {s t : State} (e : t.frames = s.frames) (h : CtxLaw s) : CtxLaw t := fun c hc =>
  (h c (by rw [← frames_ctx e]; exact hc)).of_slot (frames_plan e) fun _ => frames_analysing e

theorem CtxLaw.of_none {s : State} (h : s.cd.ctx = none) : CtxLaw s := by simp [CtxLaw, h]

/-- A slot that is not ANALYSING is set. -/
theorem CtxLaw.set {s t : State} (h : CtxLaw s) {k : Nat} {old v : Slot} (hk : s.fpc.slots[k]? = some old)
    (hn : ∀ f, old ≠ .analysing f) (ht : t.fpc.slots = s.fpc.slots.set k v) (hp : t.fpc.plan = s.fpc.plan)
    (hc : t.cd.ctx = s.cd.ctx) : CtxLaw t := fun c hct =>
  (h c (hc ▸ hct)).of_slot hp fun f hf => by
    rw [ht, getElem?_set_of_some hk, if_neg, hf]
    intro he
    rw [he, hk] at hf
    exact hn f (Option.some.inj hf)

theorem CtxLaw.fill {s : State} (h : CtxLaw s) {x : Src} {p : Pts} {k : Nat} (hk : Fillable x k s) : CtxLaw (fillSlot x p k s) := by
  obtain ⟨c, hk, hc⟩ := hk.loose
  exact h.set hk (fun f => (hc.not_detector f).1) (fillSlot_slots x p k s) rfl rfl

theorem CtxLaw.move {s t : State} (h : CtxLaw s) (m : FrameMove s t) : CtxLaw t := by
  cases m with
  | same e => exact h.congr e
  | serve w k hw hk e => exact (CtxLaw.fill (s := unlist w.source s) h hk).congr e
  | free k f v o hk e => exact (h.set (t := s.setSlot k .free) hk (by simp) rfl rfl rfl).congr e

theorem FrameMoves.ctxLaw {s t : State} (m : FrameMoves s t) (h : CtxLaw s) : CtxLaw t := m.keeps (fun _ _ h m => h.move m) h

theorem CtxLaw.leaveFrame {s : State} (h : CtxLaw s) (hl : PoolLife s) (x : Src) : CtxLaw (leaveFrame x s) := by
  have hs := leaveFrame_slots x s
  cases ho : (s.il.get x).openFrame with
  | none => rw [leaveFrame_none ho]; exact h
  | some k =>
    rw [ho] at hs
    obtain ⟨q, m, hk⟩ := (hl.filling x k).mpr ho
    exact h.set hk (by simp) hs (leaveFrame_plan x s) (congrArg Detector.ctx (leaveFrame_cd x s))

/-- An analysis starts in the geometry of its frame's source, which has rows. -/
theorem CtxLaw.start {s : State} (h : CtxLaw s) (hp : PlanLaw s) (hq : QuotaLaw s) : CtxLaw (startAnalysis s) := by
  refine startAnalysis_keeps (fun e h => h.congr (frames_of_pool e)) h (fun rest => h) fun k rest f hc _ hk c hct => ?_
  cases hct
  obtain ⟨-, -, hr, -⟩ := geometry_of_used hp hq (x := f.source) hk rfl
  exact ⟨⟨f, by simp [startedState, startCtx, getElem?_set_of_some hk], rfl, rfl, rfl⟩, rfl, rfl, hr, Nat.zero_le _⟩

/-- A row more, short of the last. -/
theorem CtxOf.measured {s : State} {c c' : AnalysisCtx} (h : CtxOf s c) (hm : Measured c c') (hn : c'.nextRow < c'.rows) :
    CtxOf s c' := by
  obtain ⟨⟨f, hf, hx, hnum, har⟩, hc, hr, -, ha⟩ := h
  refine ⟨⟨f, by rw [hm.slot]; exact hf, by rw [hm.source]; exact hx, by rw [hm.number]; exact hnum, by rw [hm.arrival]; exact har⟩,
    by rw [hm.cols, hm.source]; exact hc, by rw [hm.rows, hm.source]; exact hr, hn, ?_⟩
  rw [hm.nextRow, hm.cols, Nat.add_mul, Nat.one_mul]
  exact hm.active.trans (Nat.add_le_add_right ha _)

/-- With its last row measured, an analysis has counted at most the tiles of the grid. -/
theorem CtxOf.active_le {s : State} {c c' : AnalysisCtx} (h : CtxOf s c) (hm : Measured c c') :
    c'.active ≤ s.cols c.source * s.rows c.source := by
  obtain ⟨-, hc, hr, hn, ha⟩ := h
  rw [← hc, ← hr]
  calc c'.active ≤ c.active + c.cols := hm.active
    _ ≤ c.nextRow * c.cols + c.cols := Nat.add_le_add_right ha _
    _ = c.cols * (c.nextRow + 1) := by rw [Nat.mul_comm, Nat.mul_add, Nat.mul_one]
    _ ≤ c.cols * c.rows := Nat.mul_le_mul_left _ hn

theorem CtxLaw.act {s t : State} (h : CtxLaw s) (hl : PoolLife s) (hp : PlanLaw s) (hq : QuotaLaw s) (ha : FrameAct s t) :
    CtxLaw t := by
  cases ha with
  | moves m => exact m.ctxLaw h
  | planned p hv hpq hi e => exact .of_none (frames_ctx e)
  | softReset e => exact .of_none (frames_ctx e)
  | ingestReset x m => exact m.ctxLaw (h.leaveFrame hl x)
  | opened x p k ho hpo hk e => exact (h.fill hk).congr e
  | waits x tag p due ho hpo e => exact CtxLaw.congr e h
  | waitOver x e => exact CtxLaw.congr e h
  | rowWritten x k ho e =>
    obtain ⟨q, m, hk⟩ := (hl.filling x k).mpr ho
    exact (h.set (t := s.setSlot k (addRow (s.slot k))) hk (by simp) rfl rfl rfl).congr e
  | seals x k y p n u ho hk hu e =>
    have hc : CtxLaw (sealedState x k y p s) := h.set hk (by simp) rfl rfl rfl
    have hquota : QuotaLaw (sealedState x k y p s) :=
      hq.set (v := .queued { source := y, number := s.fpc.nextFrame.get x, pts := p, arrival := s.tcu.time }) rfl rfl
        (by simp [hk, slotSource])
    have hplan : PlanLaw u := hp.of_samePlan (.to hu ⟨rfl, List.length_set⟩)
    exact ((hc.congr hu).start hplan (hquota.congr hu)).congr e
  | abandoned x k ho m => exact m.ctxLaw (h.leaveFrame hl x)
  | row c₀ c₁ hc hm hn e =>
    refine CtxLaw.congr e fun c hct => ?_
    cases hct
    exact (h c₀ hc).measured hm hn
  | lost c₀ u hc hk hu e =>
    have hplan : PlanLaw u := hp.of_samePlan (.to hu ⟨rfl, rfl⟩)
    exact ((CtxLaw.of_none (frames_ctx hu)).start hplan (QuotaLaw.congr hu hq)).congr e
  | completes c₀ c₁ f v a d u hc hm hn hk hv hch hac ha hd hu e =>
    have hplan : PlanLaw (withCtx none d) :=
      hp.of_samePlan ((SamePlan.to ha (.supersede f.source c₁.slot f v (withCtx (some c₁) s))).trans hd.samePlan)
    have hquota : QuotaLaw d := hd.quotaLaw (QuotaLaw.congr ha (QuotaLaw.supersede (s := withCtx (some c₁) s) hq v hk))
    exact ((CtxLaw.of_none (frames_ctx hu)).start (hplan.of_samePlan (.of_frames hu)) (QuotaLaw.congr hu hquota)).congr e

/-! ### Active counts -/

theorem withinGrid_congr {s t : State} (h : t.fpc.plan = s.fpc.plan) : WithinGrid t = WithinGrid s := by
  funext f v
  simp only [WithinGrid, State.cols, State.rows, State.sourcePlan, h]

theorem allJudged_withinGrid_act {s t : State} (h : AllJudged (WithinGrid s) s) (hc : CtxLaw s) (hp : PlanLaw s) (hq : QuotaLaw s)
    (ha : FrameAct s t) : AllJudged (WithinGrid t) t := by
  rcases ha.plan with hs | ⟨p, -, -, e⟩
  · rw [withinGrid_congr hs.1]
    refine h.act ha fun c₀ c₁ f v hctx hm hk _ _ hac => ?_
    obtain ⟨⟨g, hg, hx, -⟩, -⟩ := hc c₀ hctx
    rw [hm.slot, hg] at hk
    cases hk
    obtain ⟨-, hcols, -, hrows⟩ := geometry_of_used hp hq (x := f.source) hg rfl
    have hle := (hc c₀ hctx).active_le hm
    rw [← hx, ← hac] at hle
    exact ⟨hle, hle.trans (cols_mul_rows_le hcols hrows)⟩
  · exact (AllJudged.of_free fun c hc => (List.mem_replicate.mp hc).2).congr e

theorem AnalysisLaw.congr {s t : State} (e : t.frames = s.frames) (h : AnalysisLaw s) : AnalysisLaw t := by
  obtain ⟨hc, hg⟩ := (analysisLaw_iff s).mp h
  exact (analysisLaw_iff t).mpr ⟨hc.congr e, by rw [withinGrid_congr (frames_plan e)]; exact hg.congr e⟩

/-- The laws that the analysis law rests on. -/
structure AnalysisBase (s : State) : Prop where
  life : LifeLaw s
  plan : PlanLaw s
  quota : QuotaLaw s
  analysis : AnalysisLaw s

theorem AnalysisBase.congr {s t : State} (e : t.frames = s.frames) (h : AnalysisBase s) : AnalysisBase t :=
  ⟨h.life.congr e, h.plan.of_samePlan (.of_frames e), h.quota.congr e, h.analysis.congr e⟩

theorem AnalysisBase.change {s t : State} (hc : FrameChange s t) (h : AnalysisBase s) : AnalysisLaw t := by
  obtain ⟨hctx, hgrid⟩ := (analysisLaw_iff s).mp h.analysis
  cases hc with
  | same e => exact h.analysis.congr e
  | acts hr ha =>
    have hl := ((lifeLaw_iff s).mp h.life hr).1
    exact (analysisLaw_iff t).mpr ⟨hctx.act hl h.plan h.quota ha, allJudged_withinGrid_act hgrid hctx h.plan h.quota ha⟩
  | startUp r e => exact AnalysisLaw.congr e ((analysisLaw_iff _).mpr ⟨.of_none rfl, .of_free noSlot_startUp⟩)
  | halted e =>
    obtain ⟨hs, hp, hc⟩ := halted_fpc e
    refine (analysisLaw_iff t).mpr ⟨.of_none hc, fun c hct => ?_⟩
    rw [withinGrid_congr hp]
    exact hgrid c (hs ▸ hct)

theorem SafeState.analysisBase {s : State} (h : SafeState s) : AnalysisBase s := by
  obtain ⟨-, -, hq, -, -, -, -, hl, -, hp, ha, -⟩ := h
  exact ⟨hl, hp, hq, ha⟩

/-- Settles O55: quotas, verdicts, the plan and the analysis under way, each through every act on the frames. -/
theorem stepKeepsQuotasAndVerdicts : Obligations.StepKeepsQuotasAndVerdicts :=
  ⟨fun _ _ h ht => step_keeps_frames (fun e h => h.congr e) QuotaLaw.change h ht,
    fun _ _ h ht => step_keeps_frames (fun e h => h.congr e) FrameLaw.change h ht,
    fun _ _ h ht => step_keeps_frames (fun e h => h.of_samePlan (.of_frames e)) PlanLaw.change h ht,
    fun _ _ h ht => step_keeps_frames (fun e h => h.congr e) AnalysisBase.change h.analysisBase ht⟩

end Sys2Proof.Machine
end

section
/-! O57: the order of the frame numbers (R6, R9, R11) through every act on the frames. -/

namespace Sys2Proof.Machine

open Sys2Proof Sys2Proof.Claims

/-! ### Where a frame stands -/

/-- Slot k is in state e with frame n of source x. -/
def FrameAt (slots : List Slot) (k : Nat) (x : Src) (n : FrameNo) (e : SlotState) : Prop :=
  ∃ c, slots[k]? = some c ∧ slotSource c = some x ∧ slotFrame c = some n ∧ slotState c = e

theorem holds_iff (s : State) (k : Nat) (x : Src) (n : FrameNo) : Holds s k x n ↔ ∃ e, FrameAt s.fpc.slots k x n e := by
  constructor
  · rintro ⟨c, hk, hx, hn⟩; exact ⟨_, c, hk, hx, hn, rfl⟩
  · rintro ⟨e, c, hk, hx, hn, -⟩; exact ⟨c, hk, hx, hn⟩

theorem holds_and_state (s : State) (k : Nat) (x : Src) (n : FrameNo) (e : SlotState) :
    Holds s k x n ∧ slotState (s.slot k) = e ↔ FrameAt s.fpc.slots k x n e := by
  constructor
  · rintro ⟨⟨c, hk, hx, hn⟩, he⟩
    rw [slot_of_getElem? hk] at he
    exact ⟨c, hk, hx, hn, he⟩
  · rintro ⟨c, hk, hx, hn, he⟩
    exact ⟨⟨c, hk, hx, hn⟩, by rw [slot_of_getElem? hk]; exact he⟩

theorem FrameAt.holds {s : State} {k : Nat} {x : Src} {n : FrameNo} {e : SlotState} (h : FrameAt s.fpc.slots k x n e) :
    Holds s k x n := (holds_iff s k x n).mpr ⟨e, h⟩

theorem frameAt_bare (slots : List Slot) (k : Nat) (x : Src) (n : FrameNo) (e : SlotState) :
    FrameAt (slots.map bare) k x n e ↔ FrameAt slots k x n e := by
  simp only [FrameAt, List.getElem?_map, Option.map_eq_some_iff]
  constructor
  · rintro ⟨-, ⟨c, hk, rfl⟩, h⟩
    exact ⟨c, hk, by simpa using h⟩
  · rintro ⟨c, hk, h⟩
    exact ⟨bare c, ⟨c, hk, rfl⟩, by simpa using h⟩

theorem frames_frameAt {s t : State} (e : t.frames = s.frames) (k : Nat) (x : Src) (n : FrameNo) (st : SlotState) :
    FrameAt t.fpc.slots k x n st ↔ FrameAt s.fpc.slots k x n st := by
  rw [← frameAt_bare, frames_slots e, frameAt_bare]

theorem frameAt_set {xs : List Slot} {k : Nat} {old : Slot} (hk : xs[k]? = some old) (v : Slot) (j : Nat) (x : Src) (n : FrameNo)
    (e : SlotState) : FrameAt (xs.set k v) j x n e ↔
      if j = k then slotSource v = some x ∧ slotFrame v = some n ∧ slotState v = e else FrameAt xs j x n e := by
  simp only [FrameAt, getElem?_set_of_some hk]
  split <;> simp

theorem frameAt_unique {xs : List Slot} {k : Nat} {c : Slot} {x : Src} {n : FrameNo} {e : SlotState} (h : FrameAt xs k x n e)
    (hk : xs[k]? = some c) : slotSource c = some x ∧ slotFrame c = some n ∧ slotState c = e := by
  obtain ⟨d, hd, h⟩ := h
  rw [hk] at hd
  cases hd
  exact h

/-- The frames the detector has before it, in the order it serves them. -/
def pipeline (s : State) : List Nat := (s.cd.ctx.map AnalysisCtx.slot).toList ++ s.cd.queue

/-- A frame that awaits its analysis or is under it. -/
def Pending (e : SlotState) : Prop := e = .queued ∨ e = .analysing

/-! ### The law, over where the frames stand -/

structure Numbered (s : State) : Prop where
  unique : ∀ x j k n, Holds s j x n → Holds s k x n → j = k
  given : ∀ x k n, Holds s k x n → 1 ≤ age s x n
  staleBelow : ∀ x j k n m, FrameAt s.fpc.slots j x n .stale → FrameAt s.fpc.slots k x m .current → age s x m < age s x n
  staleBehind : ∀ x j n, FrameAt s.fpc.slots j x n .stale → ∃ k m, FrameAt s.fpc.slots k x m .current
  currentBelow : ∀ x j k n m e, FrameAt s.fpc.slots j x n .current → FrameAt s.fpc.slots k x m e → Pending e →
    age s x m < age s x n
  inOrder : ∀ x (before after : List Nat) j k n m, pipeline s = before ++ j :: after → k ∈ after → Holds s j x n → Holds s k x m →
    age s x m < age s x n

theorem numberLaw_iff (s : State) : NumberLaw s ↔ Numbered s := by
  have hpipe : (match s.cd.ctx with
      | some c => [c.slot]
      | none => []) ++ s.cd.queue = pipeline s := by
    unfold pipeline
    cases s.cd.ctx <;> rfl
  constructor
  · rintro ⟨hu, hg, hsb, hsc, hcb, ho⟩
    refine ⟨hu, hg, fun x j k n m hj hk => ?_, fun x j n hj => ?_, fun x j k n m e hj hk he => ?_, fun x before after j k n m hp => ?_⟩
    · obtain ⟨hj, sj⟩ := (holds_and_state ..).mpr hj
      obtain ⟨hk, sk⟩ := (holds_and_state ..).mpr hk
      exact hsb x j k n m hj hk sj sk
    · obtain ⟨hj, sj⟩ := (holds_and_state ..).mpr hj
      obtain ⟨k, m, hk⟩ := hsc x j n hj sj
      exact ⟨k, m, (holds_and_state ..).mp hk⟩
    · obtain ⟨hj, sj⟩ := (holds_and_state ..).mpr hj
      obtain ⟨hk', rfl⟩ := (holds_and_state s k x m e).mpr hk
      exact hcb x j k n m hj hk' sj he
    · exact ho x before after j k n m (hpipe.trans hp)
  · rintro ⟨hu, hg, hsb, hsc, hcb, ho⟩
    refine ⟨hu, hg, fun x j k n m hj hk sj sk => ?_, fun x j n hj sj => ?_, fun x j k n m hj hk sj sk => ?_,
      fun x before after j k n m hp => ho x before after j k n m (hpipe.symm.trans hp)⟩
    · exact hsb x j k n m ((holds_and_state ..).mp ⟨hj, sj⟩) ((holds_and_state ..).mp ⟨hk, sk⟩)
    · obtain ⟨k, m, hk⟩ := hsc x j n ((holds_and_state ..).mp ⟨hj, sj⟩)
      exact ⟨k, m, (holds_and_state ..).mpr hk⟩
    · exact hcb x j k n m _ ((holds_and_state ..).mp ⟨hj, sj⟩) ((holds_and_state ..).mp ⟨hk, rfl⟩) sk

/-! ### Fewer frames -/

/-- The frames of t are frames of s where they were, with the same state but for an analysis started; no CURRENT frame is lost. -/
structure Fewer (s t : State) : Prop where
  next : t.fpc.nextFrame = s.fpc.nextFrame
  pipe : pipeline t = pipeline s
  back : ∀ {k x n e}, FrameAt t.fpc.slots k x n e → ∃ e', FrameAt s.fpc.slots k x n e' ∧ (e = e' ∨ (Pending e ∧ Pending e'))
  current : ∀ {k x n}, FrameAt s.fpc.slots k x n .current → FrameAt t.fpc.slots k x n .current

theorem Fewer.refl (s : State) : Fewer s s := ⟨rfl, rfl, fun h => ⟨_, h, .inl rfl⟩, id⟩

theorem Fewer.trans {s t u : State} (h : Fewer s t) (h' : Fewer t u) : Fewer s u where
  next := h'.next.trans h.next
  pipe := h'.pipe.trans h.pipe
  back hu := by
    obtain ⟨e', ht, he⟩ := h'.back hu
    obtain ⟨e'', hs, he'⟩ := h.back ht
    refine ⟨e'', hs, ?_⟩
    rcases he with rfl | ⟨hp, hp'⟩
    · exact he'
    · rcases he' with rfl | ⟨-, hp''⟩
      · exact .inr ⟨hp, hp'⟩
      · exact .inr ⟨hp, hp''⟩
  current hs := h'.current (h.current hs)

theorem Fewer.of_frames {s t : State} (e : t.frames = s.frames) : Fewer s t where
  next := frames_nextFrame e
  pipe := by rw [pipeline, pipeline, frames_ctx e, frames_queue e]
  back h := ⟨_, (frames_frameAt e ..).mp h, .inl rfl⟩
  current h := (frames_frameAt e ..).mpr h

theorem age_congr {s t : State} (h : t.fpc.nextFrame = s.fpc.nextFrame) (x : Src) (n : FrameNo) : age t x n = age s x n := by
  rw [age, age, h]

theorem Fewer.holds {s t : State} (h : Fewer s t) {k : Nat} {x : Src} {n : FrameNo} (hk : Holds t k x n) : Holds s k x n := by
  obtain ⟨e, hk⟩ := (holds_iff ..).mp hk
  obtain ⟨e', hs, -⟩ := h.back hk
  exact hs.holds

theorem not_pending_stale : ¬ Pending .stale := by simp [Pending]

theorem not_pending_current : ¬ Pending .current := by simp [Pending]

theorem Fewer.back_of_not_pending {s t : State} (h : Fewer s t) {k : Nat} {x : Src} {n : FrameNo} {e : SlotState} (he : ¬ Pending e)
    (hk : FrameAt t.fpc.slots k x n e) : FrameAt s.fpc.slots k x n e := by
  obtain ⟨e', hs, rfl | ⟨hp, -⟩⟩ := h.back hk
  · exact hs
  · exact absurd hp he

theorem Fewer.back_of_pending {s t : State} (h : Fewer s t) {k : Nat} {x : Src} {n : FrameNo} {e : SlotState} (he : Pending e)
    (hk : FrameAt t.fpc.slots k x n e) : ∃ e', FrameAt s.fpc.slots k x n e' ∧ Pending e' := by
  obtain ⟨e', hs, rfl | ⟨-, hp⟩⟩ := h.back hk
  · exact ⟨_, hs, he⟩
  · exact ⟨_, hs, hp⟩

/-- Fewer frames, in the order they had. -/
theorem Numbered.fewer {s t : State} (h : Numbered s) (f : Fewer s t) : Numbered t where
  unique x j k n hj hk := h.unique x j k n (f.holds hj) (f.holds hk)
  given x k n hk := by rw [age_congr f.next]; exact h.given x k n (f.holds hk)
  staleBelow x j k n m hj hk := by
    rw [age_congr f.next, age_congr f.next]
    exact h.staleBelow x j k n m (f.back_of_not_pending not_pending_stale hj) (f.back_of_not_pending not_pending_current hk)
  staleBehind x j n hj := by
    obtain ⟨k, m, hk⟩ := h.staleBehind x j n (f.back_of_not_pending not_pending_stale hj)
    exact ⟨k, m, f.current hk⟩
  currentBelow x j k n m e hj hk he := by
    rw [age_congr f.next, age_congr f.next]
    obtain ⟨e', hk, he⟩ := f.back_of_pending he hk
    exact h.currentBelow x j k n m e' (f.back_of_not_pending not_pending_current hj) hk he
  inOrder x before after j k n m hp hk hj hkn := by
    rw [age_congr f.next, age_congr f.next]
    exact h.inOrder x before after j k n m (f.pipe.symm.trans hp) hk (f.holds hj) (f.holds hkn)

/-- A slot that is not CURRENT set to one that names no frame. -/
theorem Fewer.set {s t : State} {k : Nat} {old v : Slot} (hk : s.fpc.slots[k]? = some old) (ho : slotState old ≠ .current)
    (hv : slotFrame v = none) (ht : t.fpc.slots = s.fpc.slots.set k v) (hn : t.fpc.nextFrame = s.fpc.nextFrame)
    (hp : pipeline t = pipeline s) : Fewer s t where
  next := hn
  pipe := hp
  back h := by
    rw [ht, frameAt_set hk] at h
    split at h
    · rw [hv] at h
      cases h.2.1
    · exact ⟨_, h, .inl rfl⟩
  current h := by
    rw [ht, frameAt_set hk, if_neg]
    · exact h
    · rintro rfl
      exact ho (frameAt_unique h hk).2.2

theorem Loose.not_current {c : Slot} (h : Loose c) : slotState c ≠ .current := by
  rcases h with rfl | ⟨_, _, _, _, rfl⟩ <;> simp [slotState]

theorem Fewer.fill {s : State} {x : Src} {p : Pts} {k : Nat} (hk : Fillable x k s) : Fewer s (fillSlot x p k s) := by
  obtain ⟨c, hk, hc⟩ := hk.loose
  exact .set hk hc.not_current (v := .filling x p 0) rfl (fillSlot_slots ..) rfl rfl

theorem Fewer.unlist (x : Src) (s : State) : Fewer s (unlist x s) := ⟨rfl, rfl, fun h => ⟨_, h, .inl rfl⟩, id⟩

theorem Fewer.move {s t : State} (m : FrameMove s t) : Fewer s t := by
  cases m with
  | same e => exact .of_frames e
  | serve w k hw hk e => exact ((Fewer.unlist w.source s).trans (.fill hk)).trans (.of_frames e)
  | free k f v o hk e =>
    exact (Fewer.set (t := s.setSlot k .free) hk (by simp [slotState]) (v := .free) rfl rfl rfl rfl).trans (.of_frames e)

theorem FrameMoves.fewer {s t : State} (m : FrameMoves s t) : Fewer s t :=
  m.keeps (P := Fewer s) (fun _ _ h m => h.trans (.move m)) (.refl s)

theorem Fewer.leaveFrame {s : State} (hl : PoolLife s) (x : Src) : Fewer s (leaveFrame x s) := by
  have hs := leaveFrame_slots x s
  cases ho : (s.il.get x).openFrame with
  | none => rw [leaveFrame_none ho]; exact .refl s
  | some k =>
    rw [ho] at hs
    obtain ⟨q, m, hk⟩ := (hl.filling x k).mpr ho
    refine .set hk (by simp [slotState]) (v := .free) rfl hs ?_ (by rw [pipeline, pipeline, leaveFrame_cd])
    rw [leaveFrame_some ho]
    rfl

/-- An analysis started is of a frame that stood in the queue. -/
theorem Fewer.start {s : State} (hd : DetectorLife s) : Fewer s (startAnalysis s) := by
  rcases startAnalysis_queued (fun k => (hd.queued k).mpr) with ⟨e, -⟩ | ⟨k, rest, f, hc, hq, hk, e⟩
  · rw [e]; exact .refl s
  · refine Fewer.trans (t := startedState k rest f s) ⟨rfl, ?_, fun {j x n st} h => ?_, fun {j x n} h => ?_⟩
      (.of_frames (frames_of_pool e))
    · simp [pipeline, startedState, startCtx, hc, hq]
    · rw [startedState, State.setSlot_fpc, frameAt_set hk] at h
      split at h
      · next hj =>
        subst hj
        obtain ⟨hx, hn, rfl⟩ := h
        exact ⟨.queued, ⟨_, hk, hx, hn, rfl⟩, .inr ⟨.inr rfl, .inl rfl⟩⟩
      · exact ⟨st, h, .inl rfl⟩
    · rw [startedState, State.setSlot_fpc, frameAt_set hk, if_neg]
      · exact h
      · rintro rfl
        cases (frameAt_unique h hk).2.2

/-- A pool without frames. -/
theorem Numbered.of_free {s : State} (h : ∀ c, c ∈ s.fpc.slots → c = .free) : Numbered s := by
  have hn : ∀ k x n, ¬ Holds s k x n := by
    rintro k x n ⟨c, hk, hx, -⟩
    rw [h c (List.mem_of_getElem? hk)] at hx
    cases hx
  exact ⟨fun x j k n hj => absurd hj (hn _ _ _), fun x k n hk => absurd hk (hn _ _ _), fun x j k n m hj => absurd hj.holds (hn _ _ _),
    fun x j n hj => absurd hj.holds (hn _ _ _), fun x j k n m e hj => absurd hj.holds (hn _ _ _),
    fun x before after j k n m _ _ hj => absurd hj (hn _ _ _)⟩

/-! ### A seal -/

theorem age_next {s t : State} {x y : Src} {n : FrameNo} (h : t.fpc.nextFrame = s.fpc.nextFrame.set x (s.fpc.nextFrame.get x + 1))
    (hr : age s y n < 2147483647) : age t y n = age s y n + if y = x then 1 else 0 := by
  rw [age, age, h, PerSource.get_set]
  split
  · next hy =>
    subst hy
    rw [age] at hr
    bv_omega
  · rfl

/-- What stands behind an entry of a list with k at its end. -/
theorem append_singleton_split {xs before after : List Nat} {k j : Nat} (h : xs ++ [k] = before ++ j :: after) (ha : after ≠ []) :
    ∃ after', after = after' ++ [k] ∧ xs = before ++ j :: after' := by
  obtain ⟨init, b, rfl⟩ := (List.eq_nil_or_concat after).resolve_left ha
  rw [List.concat_eq_append, ← List.cons_append, ← List.append_assoc] at h
  obtain ⟨hx, hb⟩ := List.append_inj' h rfl
  cases hb
  exact ⟨init, List.concat_eq_append, hx⟩

theorem mem_pipeline_pending {s : State} (hd : DetectorLife s) {k : Nat} (hk : k ∈ pipeline s) :
    AnalysingAt s.fpc.slots k ∨ QueuedAt s.fpc.slots k := by
  rcases List.mem_append.mp hk with h | h
  · obtain ⟨c, hc, rfl⟩ := Option.map_eq_some_iff.mp (Option.mem_toList.mp h)
    exact .inl ((hd.analysing _).mpr ⟨c, hc, rfl⟩)
  · exact .inr ((hd.queued k).mpr h)

section
variable {s : State} (h : Numbered s) (hr : Recent s) (hd : DetectorLife s) {x : Src} {k : Nat} {p : Pts} {m : Nat}
  (hk : s.fpc.slots[k]? = some (.filling x p m))
include hk

/-- Where a frame stands after a seal: the sealed one is QUEUED with the number its source gives, the others are where they were. -/
theorem sealedState_frameAt {j : Nat} {y : Src} {n : FrameNo} {e : SlotState}
    (hj : FrameAt (sealedState x k x p s).fpc.slots j y n e) :
    (j = k ∧ y = x ∧ n = s.fpc.nextFrame.get x ∧ e = .queued) ∨ (j ≠ k ∧ FrameAt s.fpc.slots j y n e) := by
  have hslots : (sealedState x k x p s).fpc.slots =
      s.fpc.slots.set k (.queued { source := x, number := s.fpc.nextFrame.get x, pts := p, arrival := s.tcu.time }) := rfl
  rw [hslots, frameAt_set hk] at hj
  split at hj
  · next e =>
    obtain ⟨hx, hn, he⟩ := hj
    exact .inl ⟨e, (Option.some.inj hx).symm, (Option.some.inj hn).symm, he.symm⟩
  · next e => exact .inr ⟨e, hj⟩

include hr in
/-- The ages after a seal: 1 for the sealed frame, and one more for the others of its source. -/
theorem sealedState_age {j : Nat} {y : Src} {n : FrameNo} (hj : Holds (sealedState x k x p s) j y n) :
    (j = k ∧ y = x ∧ age (sealedState x k x p s) y n = 1) ∨
    (j ≠ k ∧ Holds s j y n ∧ age (sealedState x k x p s) y n = age s y n + if y = x then 1 else 0) := by
  obtain ⟨e, hj⟩ := (holds_iff ..).mp hj
  rcases sealedState_frameAt hk hj with ⟨rfl, rfl, rfl, -⟩ | ⟨hne, hj⟩
  · refine .inl ⟨rfl, rfl, ?_⟩
    have : (sealedState y j y p s).fpc.nextFrame.get y = s.fpc.nextFrame.get y + 1 := by
      change (s.fpc.nextFrame.set y (s.fpc.nextFrame.get y + 1)).get y = _
      rw [PerSource.get_set, if_pos rfl]
    rw [age, this]
    bv_omega
  · exact .inr ⟨hne, hj.holds, age_next rfl (hr y j n hj.holds)⟩

include h hr hd in
theorem Numbered.seal : Numbered (sealedState x k x p s) := by
  have hage := fun {j y n} => sealedState_age hr hk (j := j) (y := y) (n := n)
  have hat := fun {j y n e} => sealedState_frameAt hk (j := j) (y := y) (n := n) (e := e)
  have hold : ∀ {j y n e}, e ≠ .queued → FrameAt (sealedState x k x p s).fpc.slots j y n e → FrameAt s.fpc.slots j y n e := by
    intro j y n e he hj
    rcases hat hj with ⟨-, -, -, e'⟩ | ⟨-, hj⟩
    · exact absurd e' he
    · exact hj
  refine ⟨fun y j i n hj hi => ?_, fun y j n hj => ?_, fun y j i n m hj hi => ?_, fun y j n hj => ?_,
    fun y j i n m e hj hi he => ?_, fun y before after j i n m hp hi hj him => ?_⟩
  · rcases hage hj with ⟨ej, hy, e⟩ | ⟨-, hj', e⟩ <;> rcases hage hi with ⟨ei, hy, e'⟩ | ⟨-, hi', e'⟩
    · exact ej.trans ei.symm
    · have := h.given _ i n hi'
      rw [if_pos hy] at e'
      omega
    · have := h.given _ j n hj'
      rw [if_pos hy] at e
      omega
    · exact h.unique y j i n hj' hi'
  · rcases hage hj with ⟨-, -, e⟩ | ⟨-, hj, e⟩
    · exact e.ge
    · have := h.given y j n hj
      omega
  · have hlt := h.staleBelow y j i n m (hold (by simp) hj) (hold (by simp) hi)
    rw [age_next rfl (hr y j n (hold (by simp) hj).holds), age_next rfl (hr y i m (hold (by simp) hi).holds)]
    omega
  · obtain ⟨i, m, hi⟩ := h.staleBehind y j n (hold (by simp) hj)
    refine ⟨i, m, ?_⟩
    have hslots : (sealedState x k x p s).fpc.slots =
      s.fpc.slots.set k (.queued { source := x, number := s.fpc.nextFrame.get x, pts := p, arrival := s.tcu.time }) := rfl
    rw [hslots, frameAt_set hk, if_neg]
    · exact hi
    · rintro rfl
      cases (frameAt_unique hi hk).2.2
  · have hj := hold (by simp) hj
    have hgj := h.given y j n hj.holds
    rw [age_next rfl (hr y j n hj.holds)]
    rcases hage hi.holds with ⟨rfl, rfl, e'⟩ | ⟨hne, -, e'⟩
    · rw [e', if_pos rfl]
      omega
    · rcases hat hi with ⟨rfl, -⟩ | ⟨-, hi⟩
      · exact absurd rfl hne
      · have := h.currentBelow y j i n m e hj hi he
        omega
  · have hpipe : pipeline (sealedState x k x p s) = pipeline s ++ [k] := (List.append_assoc _ _ _).symm
    have hkp : k ∉ pipeline s := fun hm => by
      rcases mem_pipeline_pending hd hm with ⟨f, e⟩ | ⟨f, e⟩ <;> (rw [hk] at e; cases e)
    obtain ⟨after', rfl, hp'⟩ := append_singleton_split (hpipe.symm.trans hp) (List.ne_nil_of_mem hi)
    have hjk : j ≠ k := fun e => hkp (by rw [hp', e]; simp)
    rcases hage hj with ⟨e, -⟩ | ⟨-, hj, e⟩
    · exact absurd e hjk
    · have hgj := h.given y j n hj
      rcases hage him with ⟨-, rfl, e'⟩ | ⟨hne, him, e'⟩
      · rw [if_pos rfl] at e
        omega
      · have hi' : i ∈ after' := by
          rcases List.mem_append.mp hi with hi | hi
          · exact hi
          · exact absurd (List.mem_singleton.mp hi) hne
        have := h.inOrder y before after' j i n m hp' hi' hj him
        omega

end

end Sys2Proof.Machine
end

section
/-! O57: a completed analysis keeps the order of the frame numbers, and with it every act does. -/

namespace Sys2Proof.Machine

open Sys2Proof Sys2Proof.Claims

/-! ### The completion of an analysis -/

section
variable {s : State} (h : Numbered s) (hl : PoolLife s) (hd : DetectorLife s) {c : AnalysisCtx} {f : SealedFrame} (v : Verdict)
  (hc : s.cd.ctx = some c) (hk : s.fpc.slots[c.slot]? = some (.analysing f))

/-- Where a frame stands once the frame f has become CURRENT in place of the one before. -/
theorem supersede_frameAt (hl : PoolLife s) (hk : s.fpc.slots[c.slot]? = some (.analysing f)) {j : Nat} {y : Src} {n : FrameNo}
    {e : SlotState} (hj : FrameAt (supersede f.source c.slot f v s).fpc.slots j y n e) :
    (j = c.slot ∧ y = f.source ∧ n = f.number ∧ e = .current) ∨
    (j ≠ c.slot ∧ FrameAt s.fpc.slots j y n e ∧ (e = .current → y ≠ f.source)) ∨
    (e = .stale ∧ y = f.source ∧ FrameAt s.fpc.slots j y n .current) := by
  rw [supersede_fpc, frameAt_set (staleSlots_analysing hk)] at hj
  split at hj
  · next hjk =>
    obtain ⟨hx, hn, he⟩ := hj
    exact .inl ⟨hjk, (Option.some.inj hx).symm, (Option.some.inj hn).symm, he.symm⟩
  · next hjk =>
    rcases staleSlots_eq hl f.source with ⟨hcur, es⟩ | ⟨i, g, w, m, o, hcur, hi, hg, es⟩
    · rw [es] at hj
      refine .inr (.inl ⟨hjk, hj, fun he hy => ?_⟩)
      obtain ⟨d, hdj, hx, -, hst⟩ := hj
      cases d with
      | analysed b g w m o =>
        cases b with
        | false => rw [he] at hst; cases hst
        | true =>
          have := (hl.current f.source j).mp ⟨g, w, m, o, hdj, (Option.some.inj hx).trans hy⟩
          rw [hcur] at this
          cases this
      | _ => rw [he] at hst; cases hst
    · rw [es, frameAt_set hi] at hj
      split at hj
      · next hji =>
        subst hji
        obtain ⟨hx, hn, he⟩ := hj
        refine .inr (.inr ⟨he.symm, ?_, ⟨_, hi, hx, hn, rfl⟩⟩)
        rw [← hg]
        exact (Option.some.inj hx).symm
      · next hji =>
        refine .inr (.inl ⟨hjk, hj, fun he hy => ?_⟩)
        obtain ⟨d, hdj, hx, -, hst⟩ := hj
        cases d with
        | analysed b g' w' m' o' =>
          cases b with
          | false => rw [he] at hst; cases hst
          | true =>
            have := (hl.current f.source j).mp ⟨g', w', m', o', hdj, (Option.some.inj hx).trans hy⟩
            rw [hcur] at this
            exact hji (Option.some.inj this).symm
        | _ => rw [he] at hst; cases hst

/-- The frame that has become CURRENT. -/
theorem supersede_frameAt_slot (hk : s.fpc.slots[c.slot]? = some (.analysing f)) :
    FrameAt (supersede f.source c.slot f v s).fpc.slots c.slot f.source f.number .current := by
  rw [supersede_fpc, frameAt_set (staleSlots_analysing hk), if_pos rfl]
  exact ⟨rfl, rfl, rfl⟩

/-- A CURRENT frame of the other source stays. -/
theorem supersede_frameAt_other (hl : PoolLife s) (hk : s.fpc.slots[c.slot]? = some (.analysing f)) {j : Nat} {y : Src} {n : FrameNo}
    (hy : y ≠ f.source) (hj : FrameAt s.fpc.slots j y n .current) :
    FrameAt (supersede f.source c.slot f v s).fpc.slots j y n .current := by
  rw [supersede_fpc, frameAt_set (staleSlots_analysing hk), if_neg]
  · rcases staleSlots_eq hl f.source with ⟨-, es⟩ | ⟨i, g, w, m, o, -, hi, hg, es⟩
    · rw [es]; exact hj
    · rw [es, frameAt_set hi, if_neg]
      · exact hj
      · rintro rfl
        exact hy ((Option.some.inj (frameAt_unique hj hi).1).symm.trans hg)
  · rintro rfl
    cases (frameAt_unique hj hk).2.2

include h hl hd hc hk in
theorem Numbered.supersede : Numbered (withCtx none (supersede f.source c.slot f v s)) := by
  have hat := fun {j y n e} => supersede_frameAt v hl hk (j := j) (y := y) (n := n) (e := e)
  have hfk : FrameAt s.fpc.slots c.slot f.source f.number .analysing := ⟨_, hk, rfl, rfl, rfl⟩
  have hnext : (withCtx none (Machine.supersede f.source c.slot f v s)).fpc.nextFrame = s.fpc.nextFrame := by
    rw [supersede_eq]
    rfl
  have hpipe : pipeline s = c.slot :: pipeline (withCtx none (Machine.supersede f.source c.slot f v s)) := by
    rw [supersede_eq]
    simp [pipeline, withCtx, hc]
  have hholds : ∀ {j y n}, Holds (withCtx none (Machine.supersede f.source c.slot f v s)) j y n → Holds s j y n := by
    intro j y n hj
    obtain ⟨e, hj⟩ := (holds_iff ..).mp hj
    rcases hat hj with ⟨rfl, rfl, rfl, -⟩ | ⟨-, hj, -⟩ | ⟨-, -, hj⟩
    · exact hfk.holds
    · exact hj.holds
    · exact hj.holds
  refine ⟨fun y j i n hj hi => h.unique y j i n (hholds hj) (hholds hi), fun y j n hj => ?_, fun y j i n m hj hi => ?_,
    fun y j n hj => ?_, fun y j i n m e hj hi he => ?_, fun y before after j i n m hp hi hj him => ?_⟩
  · rw [age_congr hnext]
    exact h.given y j n (hholds hj)
  · rw [age_congr hnext, age_congr hnext]
    rcases hat hi with ⟨rfl, rfl, rfl, -⟩ | ⟨-, hi, hy⟩ | ⟨e, -⟩
    · rcases hat hj with ⟨-, -, -, e⟩ | ⟨-, hj, -⟩ | ⟨-, -, hj⟩
      · cases e
      · obtain ⟨i, m, hi⟩ := h.staleBehind f.source j n hj
        exact (h.currentBelow _ i _ m _ _ hi hfk (.inr rfl)).trans (h.staleBelow _ j i n m hj hi)
      · exact h.currentBelow _ j _ n _ _ hj hfk (.inr rfl)
    · rcases hat hj with ⟨-, -, -, e⟩ | ⟨-, hj, -⟩ | ⟨-, e, -⟩
      · cases e
      · exact h.staleBelow y j i n m hj hi
      · exact absurd e (hy rfl)
    · cases e
  · by_cases hy : y = f.source
    · subst hy
      exact ⟨_, _, supersede_frameAt_slot v hk⟩
    · rcases hat hj with ⟨-, e, -⟩ | ⟨-, hj, -⟩ | ⟨-, e, -⟩
      · exact absurd e hy
      · obtain ⟨i, m, hi⟩ := h.staleBehind y j n hj
        exact ⟨i, m, supersede_frameAt_other v hl hk hy hi⟩
      · exact absurd e hy
  · rw [age_congr hnext, age_congr hnext]
    obtain ⟨hik, hi⟩ : i ≠ c.slot ∧ FrameAt s.fpc.slots i y m e := by
      rcases hat hi with ⟨-, -, -, rfl⟩ | ⟨hik, hi, -⟩ | ⟨rfl, -⟩
      · exact absurd he not_pending_current
      · exact ⟨hik, hi⟩
      · exact absurd he not_pending_stale
    rcases hat hj with ⟨rfl, rfl, rfl, -⟩ | ⟨-, hj, -⟩ | ⟨e, -⟩
    · have hq : i ∈ s.cd.queue := by
        rcases he with rfl | rfl
        · obtain ⟨d, hdi, -, -, hst⟩ := hi
          cases d with
          | queued g => exact (hd.queued i).mp ⟨g, hdi⟩
          | analysed b _ _ _ _ => cases b <;> cases hst
          | _ => cases hst
        · obtain ⟨d, hdi, -, -, hst⟩ := hi
          cases d with
          | analysing g =>
            obtain ⟨c', hc', rfl⟩ := (hd.analysing i).mp ⟨g, hdi⟩
            rw [hc] at hc'
            cases hc'
            exact absurd rfl hik
          | analysed b _ _ _ _ => cases b <;> cases hst
          | _ => cases hst
      exact h.inOrder f.source [] s.cd.queue c.slot i _ m (by simp [pipeline, hc]) hq hfk.holds hi.holds
    · exact h.currentBelow y j i n m e hj hi he
    · cases e
  · rw [age_congr hnext, age_congr hnext]
    exact h.inOrder y (c.slot :: before) after j i n m (by rw [hpipe, hp]; rfl) hi (hholds hj) (hholds him)

end

/-! ### Every act -/

theorem Numbered.act {s t : State} (h : Numbered s) (hr : Recent s) (hl : Alive s) (ha : FrameAct s t) : Numbered t := by
  obtain ⟨hp, hd, hi⟩ := hl
  cases ha with
  | moves m => exact h.fewer m.fewer
  | planned p hv hq hidle e => exact (Numbered.of_free fun c hc => (List.mem_replicate.mp hc).2).fewer (.of_frames e)
  | softReset e => exact (Numbered.of_free softResetPart_slots).fewer (.of_frames e)
  | ingestReset x m =>
    have hw : Fewer (leaveFrame x s) (dropWait x (leaveFrame x s)) := ⟨rfl, rfl, fun h => ⟨_, h, .inl rfl⟩, id⟩
    exact h.fewer ((Fewer.leaveFrame hp x).trans (hw.trans m.fewer))
  | opened x p k ho hq hk e => exact h.fewer ((Fewer.fill hk).trans (.of_frames e))
  | waits x tag p due ho hq e =>
    have hw : Fewer s (joinWait x tag p due s) := ⟨rfl, rfl, fun h => ⟨_, h, .inl rfl⟩, id⟩
    exact h.fewer (hw.trans (.of_frames e))
  | waitOver x e =>
    have hw : Fewer s (dropWait x s) := ⟨rfl, rfl, fun h => ⟨_, h, .inl rfl⟩, id⟩
    exact h.fewer (hw.trans (.of_frames e))
  | rowWritten x k ho e =>
    obtain ⟨q, m, hk⟩ := (hp.filling x k).mpr ho
    have hw : Fewer s (s.setSlot k (addRow (s.slot k))) :=
      .set hk (by simp [slotState]) (by rw [slot_of_getElem? hk]; rfl) rfl rfl rfl
    exact h.fewer (hw.trans (.of_frames e))
  | seals x k y p n u ho hk hu e =>
    obtain ⟨q, m, hk'⟩ := (hp.filling x k).mpr ho
    rw [hk] at hk'
    cases hk'
    have hu' : Numbered u := (h.seal hr hd hk).fewer (.of_frames hu)
    exact hu'.fewer ((Fewer.start ((hd.seal hp x p ho).congr hu)).trans (.of_frames e))
  | abandoned x k ho m => exact h.fewer ((Fewer.leaveFrame hp x).trans m.fewer)
  | row c₀ c₁ hc hm hn e =>
    have hw : Fewer s (withCtx (some c₁) s) :=
      ⟨rfl, by simp [pipeline, withCtx, hc, hm.slot], fun h => ⟨_, h, .inl rfl⟩, id⟩
    exact h.fewer (hw.trans (.of_frames e))
  | lost c₀ u hc hk hu e =>
    obtain ⟨f, hf⟩ := (hd.analysing c₀.slot).mpr ⟨c₀, hc, rfl⟩
    exact absurd (slot_of_getElem? hf) (hk f)
  | completes c₀ c₁ f v a d u hc hm hn hk hv hch hac ha hmv hu e =>
    have hw : Fewer s (withCtx (some c₁) s) :=
      ⟨rfl, by simp [pipeline, withCtx, hc, hm.slot], fun h => ⟨_, h, .inl rfl⟩, id⟩
    have hz : Numbered (withCtx none a) :=
      ((h.fewer hw).supersede (hp.withCtx _) (hd.onward hc hm.slot) v rfl hk).fewer (.of_frames (frames_withCtx none ha))
    have hu' : Numbered u := hz.fewer ((hmv.withCtx none).fewer.trans (.of_frames hu))
    have hlife := completes_life ⟨hp, hd, hi⟩ hc hm.slot hk ha hmv
    exact hu'.fewer ((Fewer.start (hlife.2.congr hu)).trans (.of_frames e))

theorem Recent.congr {s t : State} (e : t.frames = s.frames) (h : Recent s) : Recent t := fun x k n hk => by
  rw [age_congr (frames_nextFrame e)]
  exact h x k n ((Fewer.of_frames e).holds hk)

/-- The laws that the order of the numbers rests on. -/
structure NumberBase (s : State) : Prop where
  life : LifeLaw s
  numbered : Numbered s
  recent : Recent s

theorem NumberBase.congr {s t : State} (e : t.frames = s.frames) (h : NumberBase s) : NumberBase t :=
  ⟨h.life.congr e, h.numbered.fewer (.of_frames e), h.recent.congr e⟩

/-- The fall of RSTN ends the detector's work and leaves the frames. -/
theorem Numbered.halted {s t : State} (h : Numbered s) (e : execRstnAsserted s = .next t) : Numbered t := by
  cases e
  exact ⟨h.unique, h.given, h.staleBelow, h.staleBehind, h.currentBelow,
    fun x before after j k n m hp => absurd hp (by simp [pipeline])⟩

theorem NumberBase.change {s t : State} (hc : FrameChange s t) (h : NumberBase s) : Numbered t := by
  cases hc with
  | same e => exact h.numbered.fewer (.of_frames e)
  | acts hr ha => exact h.numbered.act h.recent ((lifeLaw_iff s).mp h.life hr) ha
  | startUp r e => exact (Numbered.of_free noSlot_startUp).fewer (.of_frames e)
  | halted e => exact h.numbered.halted e

theorem SafeState.numberBase {s : State} (h : SafeState s) (hr : Recent s) : NumberBase s := by
  obtain ⟨-, -, -, -, -, -, -, hl, -, -, -, -, -, hn, -⟩ := h
  exact ⟨hl, (numberLaw_iff s).mp hn, hr⟩

/-! ### Comparing frames -/

/-- Within half the numbers, R6's order is the order of the seals. -/
theorem frameBelow_of_age {s : State} {x : Src} {n m : FrameNo} (h : age s x m < age s x n) (hn : age s x n < 2147483647) :
    frameBelow n m = true := by
  simp only [frameBelow, decide_eq_true_eq]
  rw [age] at h hn
  rw [age] at h
  constructor <;> bv_omega

theorem comparable_of_recent {s : State} {x : Src} {p : Slot → Bool} (h : Recent s) (hp : ∀ c, p c = true → slotSource c = some x) :
    Comparable p s.fpc.slots := by
  refine ⟨s.fpc.nextFrame.get x - 2147483647, fun c n hc hpc hn => ?_⟩
  obtain ⟨k, hk⟩ := List.getElem?_of_mem hc
  have := h x k n ⟨c, hk, hp c hpc, hn⟩
  rw [age] at this
  bv_omega

/-- Settles O57: the order of the numbers through every act on the frames, with Recent for the seals. -/
theorem stepKeepsNumbers : Obligations.StepKeepsNumbers := by
  refine ⟨fun s t h hr ht => (numberLaw_iff t).mpr
      (step_keeps_frames (fun e h => h.congr e) NumberBase.change (h.numberBase hr) ht),
    fun s x j k c d n m h hr hj hk hcx hdx hcn hdm => ?_, fun s x p h hp => comparable_of_recent h hp⟩
  have hN := (numberLaw_iff s).mp h
  have holdj : Holds s j x n := ⟨c, hj, hcx, hcn⟩
  refine ⟨fun hne hnm => hne (hN.unique x j k n holdj ⟨d, hk, hdx, hnm ▸ hdm⟩), fun hcs hds => ?_, fun hcs hds => ?_⟩
  · exact frameBelow_of_age (hN.staleBelow x j k n m ⟨c, hj, hcx, hcn, hcs⟩ ⟨d, hk, hdx, hdm, hds⟩) (hr x j n holdj)
  · exact frameBelow_of_age (hN.currentBelow x j k n m _ ⟨c, hj, hcx, hcn, hcs⟩ ⟨d, hk, hdx, hdm, rfl⟩ hds) (hr x j n holdj)

end Sys2Proof.Machine
end

section
/-! SUPPORT. Holds and owed sets (R13, R14, R95), said over the slots and the lanes, and what keeps them. -/

namespace Sys2Proof.Machine

open Sys2Proof Sys2Proof.Claims

/-! ### The law, over the slots and the lanes -/

/-- The frame of a slot that has been analysed. -/
def verdictFrame : Slot → Option SealedFrame
  | .analysed _ f _ _ _ => some f
  | _ => none

/-- Lane l's hold list names slot k. -/
def named (s : State) (l : RLane) (k : Nat) : Bool := (s.rl.get l).holds.any (fun e => e.slot = k)

theorem named_iff {s : State} {l : RLane} {k : Nat} : named s l k = true ↔ ∃ e, e ∈ (s.rl.get l).holds ∧ e.slot = k := by
  simp [named]

/-- What the entry e of lane l's hold list says of the state: the lane is bound to the source of the frame that the entry's slot holds
and that the entry names, and that frame is not newer than the lane's mark. -/
def EntryKept (s : State) (l : RLane) (e : Hold) : Prop :=
  ∃ b m f, (s.rl.get l).binding = some b ∧ (s.rl.get l).mark = some m ∧ verdictFrame (s.slot e.slot) = some f ∧
    f.source = b.source ∧ f.number = e.frame ∧ age s b.source m ≤ age s b.source e.frame

structure LaneKept (s : State) (l : RLane) : Prop where
  few : (s.rl.get l).holds.length ≤ 2
  distinct : ((s.rl.get l).holds.map Hold.slot).Nodup
  entries : ∀ e, e ∈ (s.rl.get l).holds → EntryKept s l e
  waits : (s.rl.get l).pendingClaim.isSome = true → (s.rl.get l).binding.isSome = true ∧ (s.rl.get l).holds.length < 2

structure Kept (s : State) : Prop where
  counts : ∀ k, slotHolds (s.slot k) = rlAll.countP (fun l => named s l k)
  lanes : ∀ l, LaneKept s l
  owed : ∀ k x l, slotSource (s.slot k) = some x → (slotOwed (s.slot k)).get l = true → s.boundTo l x = true

theorem verdictFrame_eq_some {c : Slot} {f : SealedFrame} : verdictFrame c = some f ↔ ∃ cur v h o, c = .analysed cur f v h o := by
  cases c <;> simp [verdictFrame, eq_comm]

theorem entryKept_iff (s : State) (l : RLane) (e : Hold) : EntryKept s l e ↔
    ∃ b m cur f v h o, (s.rl.get l).binding = some b ∧ (s.rl.get l).mark = some m ∧
      s.fpc.slots[e.slot]? = some (.analysed cur f v h o) ∧ f.source = b.source ∧ f.number = e.frame ∧
      age s b.source m ≤ age s b.source e.frame := by
  constructor
  · rintro ⟨b, m, f, hb, hm, hf, h⟩
    obtain ⟨cur, v, n, o, hk⟩ := verdictFrame_eq_some.mp hf
    exact ⟨b, m, cur, f, v, n, o, hb, hm, getElem?_of_slot hk (by simp), h⟩
  · rintro ⟨b, m, cur, f, v, n, o, hb, hm, hk, h⟩
    exact ⟨b, m, f, hb, hm, verdictFrame_eq_some.mpr ⟨cur, v, n, o, slot_of_getElem? hk⟩, h⟩

theorem slotOwed_get_eq_true {c : Slot} {l : RLane} (h : (slotOwed c).get l = true) :
    ∃ cur f v n o, c = .analysed cur f v n o ∧ o.get l = true := by
  cases c with
  | analysed cur f v n o => exact ⟨cur, f, v, n, o, rfl, h⟩
  | _ => cases l <;> cases h

theorem laneSetEmpty_eq_false {o : PerRL Bool} : laneSetEmpty o = false ↔ ∃ l, o.get l = true := by
  simp only [laneSetEmpty, Bool.not_eq_false', Bool.or_eq_true]
  constructor
  · rintro (((h | h) | h) | h)
    exacts [⟨.r0, h⟩, ⟨.r1, h⟩, ⟨.r2, h⟩, ⟨.r3, h⟩]
  · rintro ⟨l, h⟩
    cases l
    exacts [.inl (.inl (.inl h)), .inl (.inl (.inr h)), .inl (.inr h), .inr h]

theorem holdLaw_and_owedLaw_iff (s : State) : HoldLaw s ∧ OwedLaw s ↔ Kept s ∧ ∀ k, ¬ Unwanted s k := by
  constructor
  · rintro ⟨⟨hc, hl⟩, hu, ho⟩
    refine ⟨⟨hc, fun l => ?_, fun k x l hx hg => ?_⟩, ?_⟩
    · obtain ⟨hfew, hd, he, hw⟩ := hl l
      exact ⟨hfew, hd, fun e hm => (entryKept_iff ..).mpr (he e hm), hw⟩
    · obtain ⟨cur, f, v, n, o, hk, hg⟩ := slotOwed_get_eq_true hg
      rw [hk] at hx
      cases hx
      exact ho k cur f v n o l (getElem?_of_slot hk (by simp)) hg
    · rintro k ⟨f, v, o, hk, he⟩
      obtain ⟨l, hg⟩ := hu k f v o hk
      rw [laneSetEmpty_eq_false.mpr ⟨l, hg⟩] at he
      cases he
  · rintro ⟨⟨hc, hl, ho⟩, hu⟩
    refine ⟨⟨hc, fun l => ?_⟩, fun k f v o hk => ?_, fun k cur f v n o l hk hg => ?_⟩
    · obtain ⟨hfew, hd, he, hw⟩ := hl l
      exact ⟨hfew, hd, fun e hm => (entryKept_iff ..).mp (he e hm), hw⟩
    · refine laneSetEmpty_eq_false.mp (Bool.eq_false_iff.mpr fun he => hu k ⟨f, v, o, hk, he⟩)
    · have hs := slot_of_getElem? hk
      exact ho k f.source l (by rw [hs]; rfl) (by rw [hs]; exact hg)

/-! ### What keeps it -/

/-- Lane l's binding, mark, holds and waiting claim are as they were. -/
structure SameLane (s t : State) (l : RLane) : Prop where
  binding : (t.rl.get l).binding = (s.rl.get l).binding
  mark : (t.rl.get l).mark = (s.rl.get l).mark
  holds : (t.rl.get l).holds = (s.rl.get l).holds
  claim : (t.rl.get l).pendingClaim = (s.rl.get l).pendingClaim

theorem SameLane.of_pool {s t : State} (e : t.pool = s.pool) (l : RLane) : SameLane s t l :=
  ⟨pool_binding e l, pool_mark e l, pool_holds e l, pool_pendingClaim e l⟩

theorem SameLane.named {s t : State} {l : RLane} (h : SameLane s t l) (k : Nat) : named t l k = named s l k := by
  rw [Machine.named, Machine.named, h.holds]

/-- A mark that is not newer than a slot's frame stays so. -/
def AgesKept (s t : State) : Prop :=
  ∀ x m n k f, verdictFrame (s.slot k) = some f → f.source = x → f.number = n → age s x m ≤ age s x n → age t x m ≤ age t x n

theorem AgesKept.of_nextFrame {s t : State} (h : t.fpc.nextFrame = s.fpc.nextFrame) : AgesKept s t := fun x m n k f _ _ _ ha => by
  rw [age_congr h, age_congr h]
  exact ha

theorem EntryKept.transfer {s t : State} {l : RLane} {e : Hold} (h : EntryKept s l e) (ha : AgesKept s t) (hl : SameLane s t l)
    (hf : ∀ f, verdictFrame (s.slot e.slot) = some f → verdictFrame (t.slot e.slot) = some f) : EntryKept t l e := by
  obtain ⟨b, m, f, hb, hm, hfs, hx, hn, hage⟩ := h
  exact ⟨b, m, f, hl.binding.trans hb, hl.mark.trans hm, hf f hfs, hx, hn, ha _ _ _ _ f hfs hx hn hage⟩

theorem LaneKept.transfer {s t : State} {l : RLane} (h : LaneKept s l) (ha : AgesKept s t) (hl : SameLane s t l)
    (hf : ∀ k f, named s l k = true → verdictFrame (s.slot k) = some f → verdictFrame (t.slot k) = some f) : LaneKept t l where
  few := by rw [hl.holds]; exact h.few
  distinct := by rw [hl.holds]; exact h.distinct
  entries e he := by
    rw [hl.holds] at he
    exact (h.entries e he).transfer ha hl fun f => hf e.slot f (named_iff.mpr ⟨e, he, rfl⟩)
  waits := by rw [hl.claim, hl.binding, hl.holds]; exact h.waits

theorem boundTo_congr {s t : State} {l : RLane} (h : SameLane s t l) (x : Src) : t.boundTo l x = s.boundTo l x := by
  simp only [State.boundTo, h.binding]

/-- A slot that some lane's hold list names is held. -/
theorem Kept.held {s : State} (h : Kept s) {l : RLane} {k : Nat} (hn : named s l k = true) : slotHolds (s.slot k) ≠ 0 := by
  rw [h.counts, Ne, List.countP_eq_zero]
  exact fun hz => hz l (by cases l <;> simp [rlAll]) hn

/-- How many lanes name a slot when only one lane's hold list has changed. -/
theorem countP_named_change {s t : State} (l : RLane) (hl : ∀ j, j ≠ l → SameLane s t j) (k : Nat) :
    rlAll.countP (fun j => named t j k) + (named s l k).toNat = rlAll.countP (fun j => named s j k) + (named t l k).toNat := by
  have h : ∀ j, j ≠ l → named t j k = named s j k := fun j hj => (hl j hj).named k
  have toNat : ∀ b : Bool, (if b = true then 1 else 0) = b.toNat := by decide
  simp only [rlAll, List.countP_cons, List.countP_nil, toNat]
  cases l
  · rw [h .r1 (by simp), h .r2 (by simp), h .r3 (by simp)]; omega
  · rw [h .r0 (by simp), h .r2 (by simp), h .r3 (by simp)]; omega
  · rw [h .r0 (by simp), h .r1 (by simp), h .r3 (by simp)]; omega
  · rw [h .r0 (by simp), h .r1 (by simp), h .r2 (by simp)]; omega

/-- Only lane l's record has changed, and each slot's hold count with the lane's hold list. -/
theorem Kept.lane_changed {s t : State} (h : Kept s) (l : RLane) (ha : AgesKept s t) (hl : ∀ j, j ≠ l → SameLane s t j)
    (hh : ∀ k, slotHolds (t.slot k) + (named s l k).toNat = slotHolds (s.slot k) + (named t l k).toNat)
    (hf : ∀ j k f, j ≠ l → named s j k = true → verdictFrame (s.slot k) = some f → verdictFrame (t.slot k) = some f)
    (hlane : LaneKept t l)
    (ho : ∀ k x j, slotSource (t.slot k) = some x → (slotOwed (t.slot k)).get j = true → t.boundTo j x = true) : Kept t where
  counts k := by
    have h₁ := h.counts k
    have h₂ := hh k
    have h₃ := countP_named_change l hl k
    omega
  lanes j := by
    by_cases hj : j = l
    · rw [hj]; exact hlane
    · exact (h.lanes j).transfer ha (hl j hj) fun k f => hf j k f hj
  owed := ho

/-- The lanes' records are as they were, and so are the hold counts and the held frames. -/
theorem Kept.slots_changed {s t : State} (h : Kept s) (ha : AgesKept s t) (hl : ∀ l, SameLane s t l)
    (hh : ∀ k, slotHolds (t.slot k) = slotHolds (s.slot k))
    (hf : ∀ k f, slotHolds (s.slot k) ≠ 0 → verdictFrame (s.slot k) = some f → verdictFrame (t.slot k) = some f)
    (ho : ∀ k x j, slotSource (t.slot k) = some x → (slotOwed (t.slot k)).get j = true → s.boundTo j x = true) : Kept t := by
  refine h.lane_changed .r0 ha (fun j _ => hl j) (fun k => ?_) (fun j k f _ hn => hf k f (h.held hn)) ?_ fun k x j hx hg => ?_
  · rw [(hl .r0).named, hh]
  · exact (h.lanes .r0).transfer ha (hl .r0) fun k f hn => hf k f (h.held hn)
  · rw [boundTo_congr (hl j)]
    exact ho k x j hx hg

theorem Kept.congr {s t : State} (e : t.pool = s.pool) (h : Kept s) : Kept t :=
  h.slots_changed (.of_nextFrame (pool_nextFrame e)) (SameLane.of_pool e) (fun k => by rw [pool_slot e])
    (fun k f _ hf => by rw [pool_slot e]; exact hf) (fun k x j hx hg => h.owed k x j (by rw [← pool_slot e]; exact hx)
      (by rw [← pool_slot e]; exact hg))

/-- One slot of a state set to another. -/
theorem slot_set {s t : State} {k : Nat} {old v : Slot} (hk : s.fpc.slots[k]? = some old) (ht : t.fpc.slots = s.fpc.slots.set k v)
    (j : Nat) : t.slot j = if j = k then v else s.slot j := by
  simp only [State.slot, List.getD_eq_getElem?_getD, ht, getElem?_set_of_some hk]
  split <;> rfl

/-- A slot that nothing holds is set to one that nothing holds and no lane is owed. -/
theorem Kept.set_unheld {s t : State} (h : Kept s) {k : Nat} {old v : Slot} (hk : s.fpc.slots[k]? = some old)
    (hold : slotHolds old = 0) (ht : t.fpc.slots = s.fpc.slots.set k v) (hv : slotHolds v = 0) (ha : AgesKept s t)
    (hl : ∀ l, SameLane s t l) (hvo : ∀ l x, slotSource v = some x → (slotOwed v).get l = true → s.boundTo l x = true) : Kept t := by
  have hs := slot_set hk ht
  have hk' := slot_of_getElem? hk
  refine h.slots_changed ha hl (fun j => ?_) (fun j f hh hf => ?_) fun j x l hx hg => ?_
  · rw [hs]
    split
    · next e => rw [e, hk', hv, hold]
    · rfl
  · rw [hs, if_neg]
    · exact hf
    · rintro rfl
      rw [hk'] at hh
      exact hh hold
  · rw [hs] at hx hg
    split at hx
    · next e => rw [if_pos e] at hg; exact hvo l x hx hg
    · next e => rw [if_neg e] at hg; exact h.owed j x l hx hg

theorem owed_none_of_unanalysed {v : Slot} (hv : verdictFrame v = none) (l : RLane) : (slotOwed v).get l = false := by
  cases v with
  | analysed => cases hv
  | _ => cases l <;> rfl

theorem holds_none_of_unanalysed {v : Slot} (hv : verdictFrame v = none) : slotHolds v = 0 := by
  cases v with
  | analysed => cases hv
  | _ => rfl

/-- A slot that nothing holds is set to one without a verdict. -/
theorem Kept.set_unanalysed {s t : State} (h : Kept s) {k : Nat} {old v : Slot} (hk : s.fpc.slots[k]? = some old)
    (hold : slotHolds old = 0) (ht : t.fpc.slots = s.fpc.slots.set k v) (hv : verdictFrame v = none) (ha : AgesKept s t)
    (hl : ∀ l, SameLane s t l) : Kept t :=
  h.set_unheld hk hold ht (holds_none_of_unanalysed hv) ha hl fun l x _ hg => by
    rw [owed_none_of_unanalysed hv] at hg
    cases hg

theorem Fillable.unheld {x : Src} {k : Nat} {s : State} (h : Fillable x k s) :
    ∃ c, s.fpc.slots[k]? = some c ∧ slotHolds c = 0 := by
  rcases h with ⟨h, -⟩ | ⟨f, v, o, h, -⟩
  · exact ⟨_, h, rfl⟩
  · exact ⟨_, h, rfl⟩

theorem Kept.fill {s : State} (h : Kept s) {x : Src} {p : Pts} {k : Nat} (hk : Fillable x k s) : Kept (fillSlot x p k s) := by
  obtain ⟨c, hk, hc⟩ := hk.unheld
  exact h.set_unanalysed hk hc (fillSlot_slots x p k s) rfl (.of_nextFrame rfl) fun l => ⟨rfl, rfl, rfl, rfl⟩

theorem Kept.move {s t : State} (h : Kept s) (m : Move s t) : Kept t := by
  cases m with
  | same e => exact h.congr e
  | serve w k hw hk e =>
    have hu : Kept (unlist w.source s) := ⟨h.counts, fun l => (h.lanes l).transfer (.of_nextFrame rfl) ⟨rfl, rfl, rfl, rfl⟩ fun _ _ _ => id, h.owed⟩
    exact (hu.fill hk).congr e
  | free k f v o hk e =>
    exact (h.set_unanalysed (t := s.setSlot k .free) hk rfl rfl rfl (.of_nextFrame rfl) fun l => ⟨rfl, rfl, rfl, rfl⟩).congr e

theorem Aftermath.kept {s t : State} (m : Aftermath s t) (h : Kept s) : Kept t := m.keeps (fun _ _ h m => h.move m) h

theorem Settled.kept {before : List Slot} {s t : State} (m : Settled before s t) (h : Kept s) : Kept t := m.moves.kept h

theorem Kept.start {s : State} (h : Kept s) : Kept (startAnalysis s) := by
  refine startAnalysis_keeps (fun e h => h.congr e) h (fun rest => ⟨h.counts, fun l => ?_, h.owed⟩) fun k rest f _ _ hk => ?_
  · exact (h.lanes l).transfer (.of_nextFrame rfl) ⟨rfl, rfl, rfl, rfl⟩ fun _ _ _ => id
  · exact h.set_unanalysed (t := startedState k rest f s) hk rfl (v := .analysing f) rfl rfl (.of_nextFrame rfl) fun l => ⟨rfl, rfl, rfl, rfl⟩

/-! ### Slots that are not wanted -/

/-- A slot whose bare contents and whose holds and owed set are as they were is the same slot. -/
theorem eq_of_bare_eq {c d : Slot} (h : bare c = bare d) (ht : touched c d = false) : c = d := by
  simp only [touched, Bool.or_eq_false_iff, decide_eq_false_iff_not, not_not] at ht
  obtain ⟨hh, ho⟩ := ht
  cases c <;> cases d <;> simp_all [bare, slotHolds, slotOwed]

/-- After the free checks of an event a slot is unwanted only if it was before. -/
theorem Settled.unwanted {s u t : State} (h : Settled s.fpc.slots u t) (hb : u.frames = s.frames) {k : Nat} (hk : Unwanted t k) :
    Unwanted s k := by
  obtain ⟨f, v, o, hu, ho⟩ := h.moves.unwanted hk
  have hlen : k < s.fpc.slots.length := by
    rw [← frames_length hb]
    exact (List.getElem?_eq_some_iff.mp hu).1
  have hs : s.fpc.slots[k]? = some s.fpc.slots[k] := List.getElem?_eq_getElem hlen
  have hbare := frames_getElem? hb k
  rw [hu, hs] at hbare
  have hget : s.fpc.slots.getD k .free = s.fpc.slots[k] := slot_of_getElem? hs
  cases ht : touched (s.fpc.slots.getD k .free) (u.slot k) with
  | true => exact absurd hk (h.clean k hlen ht)
  | false =>
    rw [hget, slot_of_getElem? hu] at ht
    have := eq_of_bare_eq (Option.some.inj hbare).symm ht
    exact ⟨f, v, o, hs.trans (congrArg some this), ho⟩

/-- Setting one slot to one that is not unwanted makes none unwanted. -/
theorem unwanted_of_set {s t : State} {k : Nat} {v : Slot} (ht : t.fpc.slots = s.fpc.slots.set k v)
    (hv : ∀ f w o, v ≠ .analysed false f w 0 o) {j : Nat} (h : Unwanted t j) : Unwanted s j := by
  obtain ⟨f, w, o, hj, ho⟩ := h
  rw [ht, getElem?_set_eq_some] at hj
  rcases hj with ⟨-, -, e⟩ | ⟨-, hj⟩
  · exact absurd e.symm (hv f w o)
  · exact ⟨f, w, o, hj, ho⟩

theorem unwanted_congr {s t : State} (e : t.pool = s.pool) {k : Nat} (h : Unwanted t k) : Unwanted s k := by
  obtain ⟨f, v, o, hk, ho⟩ := h
  exact ⟨f, v, o, pool_slots e ▸ hk, ho⟩

theorem unwanted_start {s : State} {k : Nat} (h : Unwanted (startAnalysis s) k) : Unwanted s k :=
  startAnalysis_keeps (P := fun u => Unwanted u k → Unwanted s k) (fun e hu h => hu (unwanted_congr e h)) id (fun _ h => h)
    (fun j rest f _ _ _ h => unwanted_of_set (t := startedState j rest f s) (v := .analysing f) rfl (by simp) h) h

end Sys2Proof.Machine
end

section
/-! SUPPORT. The rendition lanes' acts keep holds and owed sets: claims, releases, bindings and resets. -/

namespace Sys2Proof.Machine

open Sys2Proof Sys2Proof.Claims

/-! ### Slots after the lanes' operations -/

@[simp] theorem slotHolds_leaveOwed (l : RLane) (c : Slot) : slotHolds (leaveOwed l c) = slotHolds c := by cases c <;> rfl
@[simp] theorem verdictFrame_leaveOwed (l : RLane) (c : Slot) : verdictFrame (leaveOwed l c) = verdictFrame c := by cases c <;> rfl
@[simp] theorem verdictFrame_addHold (c : Slot) : verdictFrame (addHold c) = verdictFrame c := by cases c <;> rfl
@[simp] theorem verdictFrame_dropHold (c : Slot) : verdictFrame (dropHold c) = verdictFrame c := by cases c <;> rfl
@[simp] theorem slotOwed_addHold (c : Slot) : slotOwed (addHold c) = slotOwed c := by cases c <;> rfl
@[simp] theorem slotOwed_dropHold (c : Slot) : slotOwed (dropHold c) = slotOwed c := by cases c <;> rfl
@[simp] theorem slotSource_leaveOwed (l : RLane) (c : Slot) : slotSource (leaveOwed l c) = slotSource c := by cases c <;> rfl
@[simp] theorem slotSource_addHold (c : Slot) : slotSource (addHold c) = slotSource c := by cases c <;> rfl
@[simp] theorem slotSource_dropHold (c : Slot) : slotSource (dropHold c) = slotSource c := by cases c <;> rfl
@[simp] theorem slotHolds_dropHold (c : Slot) : slotHolds (dropHold c) = slotHolds c - 1 := by cases c <;> rfl

theorem slotHolds_addHold {c : Slot} {f : SealedFrame} (h : verdictFrame c = some f) : slotHolds (addHold c) = slotHolds c + 1 := by
  cases c with
  | analysed => rfl
  | _ => cases h

theorem slotOwed_leaveOwed {l j : RLane} {c : Slot} : (slotOwed (leaveOwed l c)).get j = true ↔ j ≠ l ∧ (slotOwed c).get j = true := by
  cases c with
  | analysed cur f v n o =>
    simp only [leaveOwed, slotOwed, PerRL.get_set]
    by_cases h : j = l <;> simp [h]
  | _ => cases j <;> simp [leaveOwed, slotOwed, PerRL.get]

theorem slot_mapSlots {s : State} {g : Slot → Slot} (hg : g .free = .free) (k : Nat) : (s.mapSlots g).slot k = g (s.slot k) := by
  simp only [State.slot, State.mapSlots, List.getD_eq_getElem?_getD, List.getElem?_map]
  cases s.fpc.slots[k]? with
  | none => exact hg.symm
  | some c => rfl

theorem sameLane_modRl (s : State) {l j : RLane} (h : j ≠ l) (g : RenditionLane → RenditionLane) : SameLane s (s.modRl l g) j := by
  constructor <;> rw [State.modRl_rl, PerRL.get_set, if_neg h]

theorem modRl_get (s : State) (l : RLane) (g : RenditionLane → RenditionLane) : (s.modRl l g).rl.get l = g (s.rl.get l) := by
  rw [State.modRl_rl, PerRL.get_set, if_pos rfl]

/-- A lane's record changes without its hold list, and no slot does. -/
theorem Kept.modRl {s : State} (h : Kept s) (l : RLane) (g : RenditionLane → RenditionLane)
    (hg : (g (s.rl.get l)).holds = (s.rl.get l).holds) (hl : LaneKept (s.modRl l g) l)
    (ho : ∀ x, s.boundTo l x = true → (s.modRl l g).boundTo l x = true) : Kept (s.modRl l g) := by
  refine h.lane_changed l (.of_nextFrame rfl) (fun j hj => sameLane_modRl s hj g) (fun k => ?_) (fun _ _ _ _ _ => id) hl
    fun k x j hx hgj => ?_
  · rw [named, named, modRl_get, hg]
    rfl
  · have hb := h.owed k x j hx hgj
    by_cases hj : j = l
    · subst hj; exact ho x hb
    · rw [boundTo_congr (sameLane_modRl s hj g)]; exact hb

/-! ### Bindings -/

/-- A lane that is not bound holds nothing. -/
theorem LaneKept.holds_of_unbound {s : State} {l : RLane} (h : LaneKept s l) (hb : (s.rl.get l).binding = none) :
    (s.rl.get l).holds = [] := by
  refine List.eq_nil_iff_forall_not_mem.mpr fun e he => ?_
  obtain ⟨b, m, f, hb', -⟩ := h.entries e he
  rw [hb] at hb'
  cases hb'

theorem Kept.bindFresh {s : State} (h : Kept s) {l : RLane} (x : Src) (v : Window) (hb : (s.rl.get l).binding = none) :
    Kept (bindFresh l x v s) := by
  have hh := (h.lanes l).holds_of_unbound hb
  refine h.modRl l _ rfl ?_ fun y hy => ?_
  · constructor <;> rw [modRl_get]
    · simp [hh]
    · simp [hh]
    · simp [hh]
    · simp [hh]
  · simp only [State.boundTo, hb] at hy
    cases hy

theorem Kept.rewindow {s : State} (h : Kept s) {l : RLane} {b : Binding} (v : Window) (hb : (s.rl.get l).binding = some b) :
    Kept (s.modRl l (fun r => { r with binding := some { source := b.source, window := v } })) := by
  have hl := h.lanes l
  refine h.modRl l _ rfl ?_ fun y hy => ?_
  · refine ⟨?_, ?_, fun e he => ?_, fun hw => ?_⟩
    · rw [modRl_get]; exact hl.few
    · rw [modRl_get]; exact hl.distinct
    · rw [modRl_get] at he
      obtain ⟨b', m, f, hb', hm, hf, hx, hn, ha⟩ := hl.entries e he
      rw [hb] at hb'
      cases hb'
      exact ⟨{ source := b.source, window := v }, m, f, by rw [modRl_get], by rw [modRl_get]; exact hm, hf, hx, hn, ha⟩
    · rw [modRl_get] at hw ⊢
      exact ⟨rfl, (hl.waits hw).2⟩
  · simp only [State.boundTo, modRl_get]
    simpa only [State.boundTo, hb] using hy

theorem Kept.claimWaits {s : State} (h : Kept s) {l : RLane} (d : PendingClaim) (hb : (s.rl.get l).binding.isSome = true)
    (hh : (s.rl.get l).holds.length < 2) : Kept (s.modRl l (fun r => { r with pendingClaim := some d })) := by
  have hl := h.lanes l
  refine h.modRl l _ rfl ?_ fun y hy => ?_
  · refine ⟨?_, ?_, fun e he => ?_, fun hw => ?_⟩
    · rw [modRl_get]; exact hl.few
    · rw [modRl_get]; exact hl.distinct
    · rw [modRl_get] at he
      obtain ⟨b, m, f, hb, hm, h⟩ := hl.entries e he
      exact ⟨b, m, f, by rw [modRl_get]; exact hb, by rw [modRl_get]; exact hm, h⟩
    · rw [modRl_get]; exact ⟨hb, hh⟩
  · simpa only [State.boundTo, modRl_get] using hy

theorem Kept.claimOver {s : State} (h : Kept s) (l : RLane) : Kept (s.modRl l (fun r => { r with pendingClaim := none })) := by
  have hl := h.lanes l
  refine h.modRl l _ rfl ?_ fun y hy => ?_
  · refine ⟨?_, ?_, fun e he => ?_, fun hw => ?_⟩
    · rw [modRl_get]; exact hl.few
    · rw [modRl_get]; exact hl.distinct
    · rw [modRl_get] at he
      obtain ⟨b, m, f, hb, hm, h⟩ := hl.entries e he
      exact ⟨b, m, f, by rw [modRl_get]; exact hb, by rw [modRl_get]; exact hm, h⟩
    · rw [modRl_get] at hw; cases hw
  · simpa only [State.boundTo, modRl_get] using hy

/-- A lane with nothing at all. -/
theorem LaneKept.of_empty {s : State} {l : RLane} (hh : (s.rl.get l).holds = []) (hw : (s.rl.get l).pendingClaim = none) :
    LaneKept s l := by
  constructor <;> simp [hh, hw]

theorem unboundState_slot (l : RLane) (x : Src) (s : State) (k : Nat) :
    (unboundState l x s).slot k = if slotSource (s.slot k) = some x then leaveOwed l (s.slot k) else s.slot k :=
  slot_mapSlots (s := s.modRl l (fun r => { r with binding := none, mark := none })) (by simp [slotSource]) k

theorem unboundState_rl (l : RLane) (x : Src) (s : State) :
    (unboundState l x s).rl = (s.modRl l (fun r => { r with binding := none, mark := none })).rl := rfl

/-- A lane that holds nothing and waits for nothing leaves its source. -/
theorem Kept.unbind {s : State} (h : Kept s) {l : RLane} {b : Binding} (hb : (s.rl.get l).binding = some b)
    (hh : (s.rl.get l).holds = []) (hw : (s.rl.get l).pendingClaim = none) : Kept (unboundState l b.source s) := by
  have hslot := unboundState_slot l b.source s
  have hother : ∀ j, j ≠ l → SameLane s (unboundState l b.source s) j := fun j hj => by
    have := sameLane_modRl s hj (fun r => { r with binding := none, mark := none })
    exact ⟨this.binding, this.mark, this.holds, this.claim⟩
  have hholds : ((unboundState l b.source s).rl.get l).holds = [] := by rw [unboundState_rl, modRl_get]; exact hh
  have hclaim : ((unboundState l b.source s).rl.get l).pendingClaim = none := by rw [unboundState_rl, modRl_get]; exact hw
  refine h.lane_changed l (.of_nextFrame rfl) hother (fun k => ?_) (fun j k f _ _ hf => ?_) (.of_empty hholds hclaim)
    fun k x j hx hg => ?_
  · rw [named, named, hh, hholds, hslot]
    split <;> simp
  · rw [hslot]
    split <;> simpa using hf
  · rw [hslot] at hx hg
    split at hx
    · next hs =>
      rw [if_pos hs, slotOwed_leaveOwed] at hg
      rw [boundTo_congr (hother j hg.1)]
      exact h.owed k x j (by simpa using hx) hg.2
    · next hs =>
      rw [if_neg hs] at hg
      have hbj := h.owed k x j hx hg
      have hj : j ≠ l := by
        rintro rfl
        simp only [State.boundTo, hb, decide_eq_true_eq] at hbj
        exact hs (hx.trans (congrArg some hbj.symm))
      rw [boundTo_congr (hother j hj)]
      exact hbj

theorem releasedState_slot (l : RLane) (s : State) (k : Nat) :
    (releasedState l s).slot k = leaveOwed l (if named s l k then dropHold (s.slot k) else s.slot k) := by
  have : (releasedState l s).fpc.slots = releaseAll l (s.rl.get l).holds s.fpc.slots := rfl
  simp only [State.slot, this, releaseAll, List.getD_eq_getElem?_getD, List.getElem?_map, List.getElem?_mapIdx, named]
  cases s.fpc.slots[k]? with
  | none => simp [dropHold, leaveOwed]
  | some c => rfl

theorem releasedState_get (l : RLane) (s : State) : (releasedState l s).rl.get l = resetRenditionRecord (s.rl.get l) :=
  modRl_get _ l _

theorem Kept.release_all {s : State} (h : Kept s) (l : RLane) : Kept (releasedState l s) := by
  have hslot := releasedState_slot l s
  have hother : ∀ j, j ≠ l → SameLane s (releasedState l s) j := fun j hj => by
    have := sameLane_modRl s hj resetRenditionRecord
    exact ⟨this.binding, this.mark, this.holds, this.claim⟩
  have hnone : ∀ k, named (releasedState l s) l k = false := fun k => by rw [named, releasedState_get]; rfl
  refine h.lane_changed l (.of_nextFrame rfl) hother (fun k => ?_) (fun j k f _ _ hf => ?_) ?_ fun k x j hx hg => ?_
  · rw [hnone, hslot, slotHolds_leaveOwed]
    split
    · next hn =>
      have := h.held hn
      rw [slotHolds_dropHold, hn, Bool.toNat_true, Bool.toNat_false]
      omega
    · next hn => simp [hn]
  · rw [hslot, verdictFrame_leaveOwed]
    split <;> simpa using hf
  · exact .of_empty (by rw [releasedState_get]; rfl) (by rw [releasedState_get]; rfl)
  · rw [hslot, slotOwed_leaveOwed] at hg
    rw [hslot, slotSource_leaveOwed] at hx
    rw [boundTo_congr (hother j hg.1)]
    refine h.owed k x j ?_ ?_
    · split at hx <;> simpa using hx
    · obtain ⟨-, hg⟩ := hg
      split at hg <;> simpa using hg

/-! ### Releases -/

theorem returnedState_slot {l : RLane} {k : Nat} {s : State} {c : Slot} (hk : s.fpc.slots[k]? = some c) (j : Nat) :
    (returnedState l k s).slot j = if j = k then dropHold (s.slot k) else s.slot j :=
  slot_set hk rfl j

theorem returnedState_get (l : RLane) (k : Nat) (s : State) :
    (returnedState l k s).rl.get l = { s.rl.get l with holds := (s.rl.get l).holds.filter (fun h => h.slot ≠ k) } :=
  modRl_get s l (fun r => { r with holds := r.holds.filter (fun h => h.slot ≠ k) })

theorem named_returnedState (l : RLane) (k j : Nat) (s : State) :
    named (returnedState l k s) l j = (named s l j && decide (j ≠ k)) := by
  rw [Bool.eq_iff_iff, named_iff, returnedState_get, Bool.and_eq_true, named_iff]
  simp only [List.mem_filter, decide_eq_true_eq]
  constructor
  · rintro ⟨e, ⟨he, hk⟩, rfl⟩
    exact ⟨⟨e, he, rfl⟩, hk⟩
  · rintro ⟨⟨e, he, rfl⟩, hk⟩
    exact ⟨e, ⟨he, hk⟩, rfl⟩

theorem Kept.release {s : State} (h : Kept s) {l : RLane} {k : Nat} {e : Hold} (he : holdOf (s.rl.get l) k = some e) :
    Kept (returnedState l k s) := by
  have hn : named s l k = true :=
    named_iff.mpr ⟨e, List.mem_of_find?_eq_some he, by simpa using List.find?_some he⟩
  have hheld := h.held hn
  obtain ⟨c, hk⟩ : ∃ c, s.fpc.slots[k]? = some c := by
    cases hk : s.fpc.slots[k]? with
    | some c => exact ⟨c, rfl⟩
    | none => simp [State.slot, hk, slotHolds] at hheld
  have hslot := returnedState_slot (l := l) hk
  have hother : ∀ j, j ≠ l → SameLane s (returnedState l k s) j := fun j hj => by
    have := sameLane_modRl s hj (fun r => { r with holds := r.holds.filter (fun h => h.slot ≠ k) })
    exact ⟨this.binding, this.mark, this.holds, this.claim⟩
  have hverdict : ∀ j f, verdictFrame (s.slot j) = some f → verdictFrame ((returnedState l k s).slot j) = some f := fun j f hf => by
    rw [hslot]
    split
    · next hj => subst hj; simpa using hf
    · exact hf
  have hl := h.lanes l
  refine h.lane_changed l (.of_nextFrame rfl) hother (fun j => ?_) (fun j i f _ _ => hverdict i f) ⟨?_, ?_, fun d hd => ?_, fun hw => ?_⟩
    fun j x i hx hg => ?_
  · rw [named_returnedState, hslot]
    by_cases hj : j = k
    · subst hj
      simp only [if_true, slotHolds_dropHold, hn, ne_eq, not_true, decide_false, Bool.and_false, Bool.toNat_true, Bool.toNat_false]
      omega
    · simp [hj]
  · rw [returnedState_get]; exact (List.length_filter_le _ _).trans hl.few
  · rw [returnedState_get]; exact hl.distinct.sublist (List.filter_sublist.map _)
  · rw [returnedState_get] at hd
    obtain ⟨b, m, f, hb, hm, hf, h⟩ := hl.entries d (List.mem_filter.mp hd).1
    exact ⟨b, m, f, by rw [returnedState_get]; exact hb, by rw [returnedState_get]; exact hm, hverdict _ f hf, h⟩
  · rw [returnedState_get] at hw ⊢
    obtain ⟨hb, hlen⟩ := hl.waits hw
    exact ⟨hb, (List.length_filter_le _ _).trans_lt hlen⟩
  · have hbound : (returnedState l k s).boundTo i x = s.boundTo i x := by
      by_cases hi : i = l
      · subst hi; simp only [State.boundTo, returnedState_get]
      · exact boundTo_congr (hother i hi) x
    rw [hbound]
    rw [hslot] at hx hg
    split at hx
    · next hj => subst hj; simp only [if_true, slotOwed_dropHold] at hg; exact h.owed j x i (by simpa using hx) hg
    · next hj => rw [if_neg hj] at hg; exact h.owed j x i hx hg

/-! ### Claims -/

/-- A slot that lane l's claim of frame n of source x leaves: the lane is no longer owed it when its frame is numbered at most n. -/
def leaveAtMost (l : RLane) (x : Src) (n : FrameNo) (c : Slot) : Slot := if atMost x n c then leaveOwed l c else c

section
variable (l : RLane) (x : Src) (n : FrameNo) (c : Slot)

@[simp] theorem slotHolds_leaveAtMost : slotHolds (leaveAtMost l x n c) = slotHolds c := by
  unfold leaveAtMost
  split <;> simp

@[simp] theorem verdictFrame_leaveAtMost : verdictFrame (leaveAtMost l x n c) = verdictFrame c := by
  unfold leaveAtMost
  split <;> simp

@[simp] theorem slotSource_leaveAtMost : slotSource (leaveAtMost l x n c) = slotSource c := by
  unfold leaveAtMost
  split <;> simp

end

theorem slotOwed_leaveAtMost {l j : RLane} {x : Src} {n : FrameNo} {c : Slot} (h : (slotOwed (leaveAtMost l x n c)).get j = true) :
    (slotOwed c).get j = true := by
  unfold leaveAtMost at h
  split at h
  · exact (slotOwed_leaveOwed.mp h).2
  · exact h

theorem claimedState_slot {l : RLane} {b : Binding} {k : Nat} {f : SealedFrame} {s : State} {c : Slot}
    (hk : s.fpc.slots[k]? = some c) (j : Nat) :
    (claimedState l b k f s).slot j = leaveAtMost l b.source f.number (if j = k then addHold (s.slot j) else s.slot j) := by
  have := slot_mapSlots (s := s.setSlot k (addHold (s.slot k))) (g := leaveAtMost l b.source f.number) rfl j
  rw [slot_set (t := s.setSlot k (addHold (s.slot k))) hk rfl] at this
  refine Eq.trans this (congrArg (leaveAtMost l b.source f.number) ?_)
  split
  · next hj => rw [hj]
  · rfl

theorem claimedState_get (l : RLane) (b : Binding) (k : Nat) (f : SealedFrame) (s : State) :
    (claimedState l b k f s).rl.get l =
      { s.rl.get l with
        holds := (s.rl.get l).holds ++ [⟨k, f.number, b.window⟩], mark := some f.number, pendingClaim := none } :=
  modRl_get _ l _

theorem claimedState_other {l j : RLane} (hj : j ≠ l) (b : Binding) (k : Nat) (f : SealedFrame) (s : State) :
    SameLane s (claimedState l b k f s) j := by
  have := sameLane_modRl s hj (fun r => { r with
    holds := r.holds ++ [⟨k, f.number, b.window⟩], mark := some f.number, pendingClaim := none })
  exact ⟨this.binding, this.mark, this.holds, this.claim⟩

theorem named_claimedState (l : RLane) (b : Binding) (k : Nat) (f : SealedFrame) (s : State) (j : Nat) :
    named (claimedState l b k f s) l j = (named s l j || decide (j = k)) := by
  rw [named, claimedState_get, List.any_append]
  simp [named, eq_comm]

theorem claimedState_verdictFrame {l : RLane} {b : Binding} {k : Nat} {f : SealedFrame} {s : State} {c : Slot}
    (hk : s.fpc.slots[k]? = some c) (j : Nat) : verdictFrame ((claimedState l b k f s).slot j) = verdictFrame (s.slot j) := by
  rw [claimedState_slot hk, verdictFrame_leaveAtMost]
  split <;> simp

/-- A lane takes a frame of its source that it does not hold and that is not older than those it holds. -/
theorem Kept.claim {s : State} (h : Kept s) {l : RLane} {b : Binding} {k : Nat} {f : SealedFrame} {c : Slot}
    (hk : s.fpc.slots[k]? = some c) (hc : verdictFrame c = some f) (hb : (s.rl.get l).binding = some b) (hx : f.source = b.source)
    (hh : (s.rl.get l).holds.length < 2)
    (he : ∀ e, e ∈ (s.rl.get l).holds → e.slot ≠ k ∧ age s b.source f.number ≤ age s b.source e.frame) :
    Kept (claimedState l b k f s) := by
  have hslot := claimedState_slot (l := l) (b := b) (f := f) hk
  have hverdict := claimedState_verdictFrame (l := l) (b := b) (f := f) hk
  have hsk := slot_of_getElem? hk
  have hl := h.lanes l
  have hn : named s l k = false := by
    rw [← Bool.not_eq_true, named_iff]
    rintro ⟨e, hm, hek⟩
    exact (he e hm).1 hek
  have hage : ∀ n, age (claimedState l b k f s) b.source n = age s b.source n := fun n => rfl
  refine h.lane_changed l (.of_nextFrame rfl) (fun j hj => claimedState_other hj b k f s) (fun j => ?_)
    (fun j i g _ _ hg => (hverdict i).trans hg) ⟨?_, ?_, fun d hd => ?_, fun hw => ?_⟩ fun j x i hxj hg => ?_
  · have hset : slotHolds ((claimedState l b k f s).slot j) = slotHolds (s.slot j) + (decide (j = k)).toNat := by
      rw [hslot, slotHolds_leaveAtMost]
      by_cases hj : j = k
      · subst hj
        simp [slotHolds_addHold (show verdictFrame (s.slot j) = some f by rw [hsk]; exact hc)]
      · simp [hj]
    rw [hset, named_claimedState]
    by_cases hj : j = k
    · subst hj; simp [hn]
    · simp [hj]
  · rw [claimedState_get]
    simp only [List.length_append, List.length_singleton]
    omega
  · rw [claimedState_get]
    simp only [List.map_append, List.map_cons, List.map_nil, List.nodup_append, List.mem_singleton]
    refine ⟨hl.distinct, by simp, fun i hi d hd => ?_⟩
    obtain ⟨e, hm, rfl⟩ := List.mem_map.mp hi
    rw [hd]
    exact (he e hm).1
  · rw [claimedState_get] at hd
    have hb' : ((claimedState l b k f s).rl.get l).binding = some b := by rw [claimedState_get]; exact hb
    have hm' : ((claimedState l b k f s).rl.get l).mark = some f.number := by rw [claimedState_get]
    rcases List.mem_append.mp hd with hd | hd
    · obtain ⟨b', m, g, hbg, hm, hg, hgx, hgn, ha⟩ := hl.entries d hd
      rw [hb] at hbg
      cases hbg
      exact ⟨b, f.number, g, hb', hm', (hverdict _).trans hg, hgx, hgn, (he d hd).2⟩
    · obtain rfl := List.mem_singleton.mp hd
      exact ⟨b, f.number, f, hb', hm', by rw [hverdict, hsk]; exact hc, hx, rfl, Nat.le_refl _⟩
  · rw [claimedState_get] at hw
    cases hw
  · have hbound : (claimedState l b k f s).boundTo i x = s.boundTo i x := by
      by_cases hi : i = l
      · subst hi; simp only [State.boundTo, claimedState_get]
      · exact boundTo_congr (claimedState_other hi b k f s) x
    rw [hbound]
    refine h.owed j x i ?_ ?_
    · rw [hslot, slotSource_leaveAtMost] at hxj
      split at hxj <;> simpa using hxj
    · rw [hslot] at hg
      have := slotOwed_leaveAtMost hg
      split at this <;> simpa using this

end Sys2Proof.Machine
end

section
/-! O56: every act on the pool keeps holds and owed sets, and leaves no STALE slot unheld and unwanted. -/

namespace Sys2Proof.Machine

open Sys2Proof Sys2Proof.Claims

/-! ### The ingest lanes' acts -/

/-- Neither a slot nor a lane's record nor a source's next number has changed. -/
theorem Kept.same {s t : State} (h : Kept s) (hs : t.fpc.slots = s.fpc.slots) (hn : t.fpc.nextFrame = s.fpc.nextFrame)
    (hr : t.rl = s.rl) : Kept t := by
  have hslot : ∀ k, t.slot k = s.slot k := fun k => by simp only [State.slot, hs]
  refine h.slots_changed (.of_nextFrame hn) (fun l => by constructor <;> rw [hr]) (fun k => by rw [hslot])
    (fun k f _ hf => by rw [hslot]; exact hf) fun k x l hx hg => ?_
  rw [hslot] at hx hg
  exact h.owed k x l hx hg

/-- A pool of FREE slots, with lanes that hold nothing and wait for nothing. -/
theorem Kept.of_free {s : State} (hs : ∀ c, c ∈ s.fpc.slots → c = .free) (hh : ∀ l, (s.rl.get l).holds = [])
    (hw : ∀ l, (s.rl.get l).pendingClaim = none) : Kept s := by
  have hslot : ∀ k, s.slot k = .free := fun k => by
    simp only [State.slot, List.getD_eq_getElem?_getD]
    cases hk : s.fpc.slots[k]? with
    | none => rfl
    | some c => exact hs c (List.mem_of_getElem? hk)
  refine ⟨fun k => ?_, fun l => .of_empty (hh l) (hw l), fun k x l hx => ?_⟩
  · rw [hslot, List.countP_eq_zero.mpr fun l _ => by simp [named, hh]]
    rfl
  · rw [hslot] at hx
    cases hx

theorem Kept.leaveFrame {s : State} (h : Kept s) (hl : PoolLife s) (x : Src) : Kept (leaveFrame x s) := by
  have hs := leaveFrame_slots x s
  cases ho : (s.il.get x).openFrame with
  | none => rw [leaveFrame_none ho]; exact h
  | some k =>
    rw [ho] at hs
    obtain ⟨q, m, hk⟩ := (hl.filling x k).mpr ho
    have e := leaveFrame_some ho
    refine h.set_unanalysed hk rfl hs rfl (.of_nextFrame (by rw [e]; rfl)) fun l => ?_
    rw [e]
    exact ⟨rfl, rfl, rfl, rfl⟩

/-- A seal makes every frame of its source one seal older. -/
theorem agesKept_sealedState {s : State} (hr : Recent s) (x : Src) (k : Nat) (y : Src) (p : Pts) :
    AgesKept s (sealedState x k y p s) := by
  intro z m n j f hf hz hn ha
  obtain ⟨cur, v, c, o, hj⟩ := verdictFrame_eq_some.mp hf
  have hh : Holds s j z n := ⟨_, getElem?_of_slot hj (by simp), congrArg some hz, congrArg some hn⟩
  have hlt := hr z j n hh
  rw [age_next rfl hlt, age_next rfl (ha.trans_lt hlt)]
  omega

theorem Kept.seal {s : State} (h : Kept s) (hr : Recent s) {x : Src} {k : Nat} {y : Src} {p : Pts} {n : Nat}
    (hk : s.fpc.slots[k]? = some (.filling y p n)) : Kept (sealedState x k y p s) :=
  h.set_unanalysed hk rfl
    (v := .queued { source := y, number := s.fpc.nextFrame.get x, pts := p, arrival := s.tcu.time })
    rfl rfl (agesKept_sealedState hr x k y p) fun _ => ⟨rfl, rfl, rfl, rfl⟩

/-! ### Claims -/

/-- Within half the numbers, a frame above a lane's mark is newer than the mark. -/
theorem age_lt_of_aboveMark {s : State} {x : Src} {m n : FrameNo} (h : AboveMark (some m) n) (hm : age s x m < 2147483647)
    (hn : age s x n < 2147483647) : age s x n < age s x m := by
  rw [age] at hm hn ⊢
  rw [age]
  rcases h m rfl with h | h
  · simp only [frameBelow, decide_eq_true_eq] at h
    obtain ⟨hne, h⟩ := h
    bv_omega
  · simp only [frameAtMost, decide_eq_false_iff_not, not_lt] at h
    bv_omega

theorem holds_of_verdictFrame {s : State} {k : Nat} {f : SealedFrame} (h : verdictFrame (s.slot k) = some f) :
    Holds s k f.source f.number := by
  obtain ⟨cur, v, c, o, hk⟩ := verdictFrame_eq_some.mp h
  exact ⟨_, getElem?_of_slot hk (by simp), rfl, rfl⟩

/-- A frame above the lane's mark is not among the lane's holds, and newer than all of them. -/
theorem Kept.above_mark {s : State} (h : Kept s) (hr : Recent s) {l : RLane} {b : Binding} {k : Nat} {f : SealedFrame}
    (hb : (s.rl.get l).binding = some b) (hf : verdictFrame (s.slot k) = some f) (hx : f.source = b.source)
    (ha : AboveMark (s.rl.get l).mark f.number) :
    ∀ e, e ∈ (s.rl.get l).holds → e.slot ≠ k ∧ age s b.source f.number ≤ age s b.source e.frame := by
  intro e he
  obtain ⟨b', m, g, hb', hm, hg, hgx, hgn, hage⟩ := (h.lanes l).entries e he
  rw [hb] at hb'
  cases hb'
  rw [hm] at ha
  have hrg := hr _ _ _ (holds_of_verdictFrame hg)
  have hrf := hr _ _ _ (holds_of_verdictFrame hf)
  rw [hgx, hgn] at hrg
  rw [hx] at hrf
  have hlt := age_lt_of_aboveMark ha (hage.trans_lt hrg) hrf
  refine ⟨fun hek => ?_, by omega⟩
  rw [hek, hf] at hg
  cases hg
  rw [← hgn] at hage
  omega

/-! ### The completion of an analysis -/

theorem Kept.supersede {s : State} (h : Kept s) {k : Nat} {f : SealedFrame} (v : Verdict)
    (hk : s.fpc.slots[k]? = some (.analysing f)) : Kept (supersede f.source k f v s) := by
  have hstale : Kept { s with fpc := { s.fpc with slots := staleSlots f.source s } } := by
    rcases staleSlots_cases f.source s with e | ⟨j, cur, g, w, m, o, hj, e⟩
    · exact h.same e rfl rfl
    · have hs := slot_set (t := { s with fpc := { s.fpc with slots := staleSlots f.source s } }) hj e
      have hsj := slot_of_getElem? hj
      refine h.slots_changed (.of_nextFrame rfl) (fun l => ⟨rfl, rfl, rfl, rfl⟩) (fun i => ?_) (fun i d _ hd => ?_) fun i x l hx hg => ?_
      · rw [hs]
        split
        · next hi => rw [hi, hsj]; rfl
        · rfl
      · rw [hs]
        split
        · next hi => rw [hi, hsj] at hd; exact hd
        · exact hd
      · rw [hs] at hx hg
        refine h.owed i x l ?_ ?_
        · split at hx
          · next hi => rw [hi, hsj]; exact hx
          · exact hx
        · split at hg
          · next hi => rw [hi, hsj]; exact hg
          · exact hg
  rw [supersede_eq]
  refine hstale.set_unheld (staleSlots_analysing hk) rfl rfl rfl (.of_nextFrame rfl) (fun l => ⟨rfl, rfl, rfl, rfl⟩) fun l x hx hg => ?_
  cases hx
  have hg : (boundSet f.source s).get l = true := hg
  rw [boundSet_get] at hg
  exact hg

/-- A frame under analysis is newer than every frame of its source that has a verdict. -/
theorem Numbered.analysing_newest {s : State} (h : Numbered s) {k : Nat} {f g : SealedFrame}
    (hk : s.fpc.slots[k]? = some (.analysing f)) {j : Nat} (hj : verdictFrame (s.slot j) = some g) (hx : g.source = f.source) :
    age s f.source f.number < age s f.source g.number := by
  have hfk : FrameAt s.fpc.slots k f.source f.number .analysing := ⟨_, hk, rfl, rfl, rfl⟩
  obtain ⟨cur, v, n, o, hsj⟩ := verdictFrame_eq_some.mp hj
  have hsj := getElem?_of_slot hsj (by simp)
  cases cur with
  | true => exact h.currentBelow _ j k _ _ _ ⟨_, hsj, congrArg some hx, rfl, rfl⟩ hfk (.inr rfl)
  | false =>
    have hjs : FrameAt s.fpc.slots j f.source g.number .stale := ⟨_, hsj, congrArg some hx, rfl, rfl⟩
    obtain ⟨i, m, hi⟩ := h.staleBehind _ j _ hjs
    exact (h.currentBelow _ i k _ _ _ hi hfk (.inr rfl)).trans (h.staleBelow _ j i _ _ hjs hi)

/-- The pending claims of source x are being served with its new CURRENT frame n in slot k: a lane whose claim waits holds neither that
slot nor a newer frame. -/
structure Claiming (x : Src) (k : Nat) (n : FrameNo) (s : State) : Prop where
  kept : Kept s
  pos : FrameAt s.fpc.slots k x n .current
  fresh : ∀ l, (s.rl.get l).pendingClaim.isSome = true → s.boundTo l x = true →
    ∀ e, e ∈ (s.rl.get l).holds → e.slot ≠ k ∧ age s x n ≤ age s x e.frame

theorem Move.sameLane {s t : State} (m : Move s t) (l : RLane) : SameLane s t l := by
  cases m with
  | same e => exact .of_pool e l
  | serve w k hw hk e =>
    have := SameLane.of_pool e l
    exact ⟨this.binding, this.mark, this.holds, this.claim⟩
  | free k f v o hk e =>
    have := SameLane.of_pool e l
    exact ⟨this.binding, this.mark, this.holds, this.claim⟩

theorem SameLane.trans {s t u : State} {l : RLane} (h : SameLane s t l) (h' : SameLane t u l) : SameLane s u l :=
  ⟨h'.binding.trans h.binding, h'.mark.trans h.mark, h'.holds.trans h.holds, h'.claim.trans h.claim⟩

theorem Aftermath.sameLane {s t : State} (m : Aftermath s t) (l : RLane) : SameLane s t l :=
  m.keeps (P := fun u => SameLane s u l) (fun _ _ h m => h.trans (m.sameLane l)) ⟨rfl, rfl, rfl, rfl⟩

theorem Claiming.congr {x : Src} {k : Nat} {n : FrameNo} {s t : State} (h : Claiming x k n s) (e : t.pool = s.pool) :
    Claiming x k n t := by
  refine ⟨h.kept.congr e, by rw [pool_slots e]; exact h.pos, fun l hp hb d hd => ?_⟩
  rw [pool_pendingClaim e] at hp
  rw [pool_boundTo e] at hb
  rw [pool_holds e] at hd
  rw [age_congr (pool_nextFrame e), age_congr (pool_nextFrame e)]
  exact h.fresh l hp hb d hd

theorem Claiming.step {x : Src} {k : Nat} {n : FrameNo} {s t : State} (h : Claiming x k n s) (m : PendingStep x k s t) :
    Claiming x k n t := by
  have hfewer := m.frames.fewer
  cases m with
  | same e => exact h.congr e
  | taken l b hb hx hp ht =>
    obtain ⟨cur, f, v, c, o, hk, ht⟩ := ht
    obtain ⟨hfx, hfn, -⟩ := frameAt_unique h.pos hk
    have hfx : f.source = x := Option.some.inj hfx
    have hfn : f.number = n := Option.some.inj hfn
    have hbound : s.boundTo l x = true := by simp [State.boundTo, hb, hx]
    have hclaim : Kept (claimedState l b k f s) :=
      h.kept.claim hk rfl hb (hfx.trans hx.symm) ((h.kept.lanes l).waits hp).2 (by rw [hx, hfn]; exact h.fresh l hp hbound)
    refine ⟨ht.kept hclaim, hfewer.current h.pos, fun j hpj hbj e he => ?_⟩
    have hj := ht.moves.sameLane j
    rw [hj.claim] at hpj
    by_cases hjl : j = l
    · subst hjl
      rw [claimedState_get] at hpj
      cases hpj
    · have hj' := (claimedState_other hjl b k f s).trans hj
      have hj₀ := claimedState_other hjl b k f s
      rw [hj₀.claim] at hpj
      rw [boundTo_congr hj'] at hbj
      rw [hj'.holds] at he
      rw [age_congr hfewer.next, age_congr hfewer.next]
      exact h.fresh j hpj hbj e he

theorem Claiming.steps {x : Src} {k : Nat} {n : FrameNo} {s t : State} (h : Claiming x k n s)
    (m : Relation.ReflTransGen (PendingStep x k) s t) : Claiming x k n t := by
  induction m with
  | refl => exact h
  | tail _ m ih => exact ih.step m

/-- With its frame CURRENT, the completing analysis finds every waiting claim of its source without that frame. -/
theorem Claiming.supersede {s : State} (h : Kept s) (hn : Numbered s) {k : Nat} {f : SealedFrame} (v : Verdict)
    (hk : s.fpc.slots[k]? = some (.analysing f)) : Claiming f.source k f.number (supersede f.source k f v s) := by
  refine ⟨h.supersede v hk, ?_, fun l hp hb e he => ?_⟩
  · rw [supersede_fpc, frameAt_set (staleSlots_analysing hk), if_pos rfl]
    exact ⟨rfl, rfl, rfl⟩
  · have hrl : (Machine.supersede f.source k f v s).rl = s.rl := by rw [supersede_eq]
    have hnext : (Machine.supersede f.source k f v s).fpc.nextFrame = s.fpc.nextFrame := by rw [supersede_eq]
    rw [hrl] at he
    obtain ⟨b, m, g, hbg, -, hg, hgx, hgn, -⟩ := (h.lanes l).entries e he
    have hbx : b.source = f.source := by
      simpa only [State.boundTo, hrl, hbg, decide_eq_true_eq] using hb
    have hlt := hn.analysing_newest hk hg (hgx.trans hbx)
    rw [hgn] at hlt
    rw [age_congr hnext, age_congr hnext]
    refine ⟨fun hek => ?_, hlt.le⟩
    rw [hek, slot_of_getElem? hk] at hg
    cases hg

theorem PendingSteps.unwanted {x : Src} {k : Nat} {s t : State} (m : Relation.ReflTransGen (PendingStep x k) s t) {i : Nat}
    (h : Unwanted t i) : Unwanted s i := by
  induction m with
  | refl => exact h
  | tail _ m ih =>
    cases m with
    | same e => exact ih (unwanted_congr e h)
    | taken l b hb hx hp ht =>
      obtain ⟨cur, f, v, c, o, hk, ht⟩ := ht
      exact ih (ht.unwanted frames_claimedState h)

/-- A completed analysis leaves unwanted, before the last free check, at most the slot it superseded. -/
theorem unwanted_supersede {s : State} (hl : PoolLife s) {k : Nat} {f : SealedFrame} {v : Verdict}
    (hk : s.fpc.slots[k]? = some (.analysing f)) {i : Nat} (h : Unwanted (supersede f.source k f v s) i) :
    Unwanted s i ∨ (s.fpc.current.get f.source = some i ∧ i ≠ k) := by
  obtain ⟨g, w, o, hi, ho⟩ := h
  rw [supersede_fpc] at hi
  rw [getElem?_set_of_some (staleSlots_analysing hk)] at hi
  split at hi
  · cases hi
  · next hik =>
    rcases staleSlots_eq hl f.source with ⟨-, e⟩ | ⟨j, d, w', m, o', hcur, hj, -, e⟩
    · exact .inl ⟨g, w, o, e ▸ hi, ho⟩
    · rw [e, getElem?_set_of_some hj] at hi
      split at hi
      · next hij => rw [hij] at hik ⊢; exact .inr ⟨hcur, hik⟩
      · exact .inl ⟨g, w, o, hi, ho⟩

/-! ### Every act -/

/-- The laws that holds and owed sets rest on. -/
structure HoldBase (s : State) : Prop where
  life : LifeLaw s
  numbered : Numbered s
  recent : Recent s
  kept : Kept s
  wanted : ∀ k, ¬ Unwanted s k

theorem HoldBase.congr {s t : State} (e : t.pool = s.pool) (h : HoldBase s) : HoldBase t :=
  ⟨h.life.congr (frames_of_pool e), h.numbered.fewer (.of_frames (frames_of_pool e)), h.recent.congr (frames_of_pool e),
    h.kept.congr e, fun k hk => h.wanted k (unwanted_congr e hk)⟩

theorem pendingClaim_of_poolIdle {s : State} (h : poolIdle s = true) (l : RLane) : (s.rl.get l).pendingClaim = none := by
  simp only [poolIdle, Bool.and_eq_true, List.all_eq_true] at h
  simpa using h.1.2 l (by cases l <;> simp [rlAll])

theorem Kept.completed {s : State} (h : HoldBase s) {c : AnalysisCtx} {t : State} (m : Completed c s t) : Kept t := by
  cases m with
  | lost u hk hu e => exact (Kept.congr hu (h.kept.same (t := withCtx none s) rfl rfl rfl)).start.congr e
  | current f v a b d u hk hv hc hn ha hb hd hj hu e =>
    have hb' := ((Claiming.supersede h.kept h.numbered v hk).congr ha).steps hb
    have hd' : Kept (withCtx none d) := (hd.kept hb'.kept).same rfl rfl rfl
    exact (hd'.congr hu).start.congr e

theorem wanted_completed {s : State} (hw : ∀ k, ¬ Unwanted s k) (hl : PoolLife s) {c : AnalysisCtx} {t : State} (m : Completed c s t)
    (k : Nat) : ¬ Unwanted t k := by
  intro hk
  cases m with
  | lost u hs hu e => exact hw k (unwanted_congr (s := withCtx none s) hu (unwanted_start (unwanted_congr e hk)))
  | current f v a b d u hs hv hc hn ha hb hd hj hu e =>
    have hkd : Unwanted d k := unwanted_congr (s := withCtx none d) hu (unwanted_start (unwanted_congr e hk))
    have hka : Unwanted a k := PendingSteps.unwanted hb (hd.unwanted hkd)
    rcases unwanted_supersede hl hs (unwanted_congr ha hka) with h | ⟨hcur, hne⟩
    · exact hw k h
    · exact hj k hcur hne hkd

/-- The laws when the analysis under way has measured its row. -/
theorem HoldBase.onward {s : State} (h : HoldBase s) (hl : Alive s) {c₀ c₁ : AnalysisCtx} (hc : s.cd.ctx = some c₀)
    (hs : c₁.slot = c₀.slot) : HoldBase (withCtx (some c₁) s) ∧ Alive (withCtx (some c₁) s) := by
  have ha : Alive (withCtx (some c₁) s) := ⟨hl.1.withCtx _, hl.2.1.onward hc hs, fun e => (nomatch e)⟩
  refine ⟨⟨(lifeLaw_iff _).mpr fun _ => ha, ?_, h.recent, h.kept.same rfl rfl rfl, h.wanted⟩, ha⟩
  exact h.numbered.fewer ⟨rfl, by simp [pipeline, withCtx, hc, hs], fun h => ⟨_, h, .inl rfl⟩, id⟩

theorem Kept.act {c : Instr} {s t : State} (h : HoldBase s) (hl : Alive s) (ha : PoolAct c s t) : Kept t := by
  have hk₀ := h.kept
  cases ha with
  | same e => exact hk₀.congr e
  | planned p hp hq hi e =>
    refine Kept.congr e (.of_free (fun c hc => (List.mem_replicate.mp hc).2) (by intro l; cases l <;> rfl) fun l => ?_)
    have := pendingClaim_of_poolIdle hi l
    cases l <;> exact this
  | softReset p hc e => exact Kept.congr e (.of_free softResetPart_slots (by intro l; cases l <;> rfl) (by intro l; cases l <;> rfl))
  | ingestReset x hc m => exact m.kept ((hk₀.leaveFrame hl.1 x).same rfl rfl rfl)
  | renditionReset l hc m => exact m.kept (hk₀.release_all l)
  | opened x p k ho hp hk e => exact (hk₀.fill hk).congr e
  | waits x tag p due ho hp e => exact Kept.congr e (hk₀.same (t := joinWait x tag p due s) rfl rfl rfl)
  | waitOver x e => exact Kept.congr e (hk₀.same (t := dropWait x s) rfl rfl rfl)
  | rowWritten x k ho e =>
    obtain ⟨q, m, hk⟩ := (hl.1.filling x k).mpr ho
    refine Kept.congr e (hk₀.set_unanalysed (v := addRow (s.slot k)) hk rfl rfl ?_ (.of_nextFrame rfl) fun _ => ⟨rfl, rfl, rfl, rfl⟩)
    rw [slot_of_getElem? hk]
    rfl
  | seals x k y p n u ho hk hu e => exact ((hk₀.seal h.recent hk).congr hu).start.congr e
  | abandoned x k ho m => exact m.kept (hk₀.leaveFrame hl.1 x)
  | rewindowed l b v hb e => exact (hk₀.rewindow v hb).congr e
  | bound l x v hb e => exact (hk₀.bindFresh x v hb).congr e
  | unbound l b hb hh hw m => exact m.kept (hk₀.unbind hb hh hw)
  | rebound l b x v u hb hh hw hu e =>
    refine Kept.congr e ((hu.kept (hk₀.unbind hb hh hw)).bindFresh x v ?_)
    rw [(hu.moves.sameLane l).binding, unboundState_rl, modRl_get]
  | claimed l b k n hb hw hh hx hn ha ht =>
    obtain ⟨cur, f, v, c, o, hk, m⟩ := ht
    have hs := slot_of_getElem? hk
    rw [hs] at hx hn
    cases hn
    have hbx : f.source = b.source := Option.some.inj hx
    exact m.kept (hk₀.claim hk rfl hb hbx hh (hk₀.above_mark h.recent hb (by rw [hs]; rfl) hbx ha))
  | claimWaits l d hb hh e => exact (hk₀.claimWaits d hb hh).congr e
  | claimOver l e => exact (hk₀.claimOver l).congr e
  | released l k e hc hh m => exact m.kept (hk₀.release hh)
  | row c₀ c₁ hc hm hn e => exact Kept.congr e (hk₀.same (t := withCtx (some c₁) s) rfl rfl rfl)
  | completes c₀ c₁ hc hm hn m =>
    exact Kept.completed (h.onward hl hc hm.slot).1 m

theorem unwanted_leaveFrame {x : Src} {s : State} {k : Nat} (h : Unwanted (leaveFrame x s) k) : Unwanted s k := by
  have hs := leaveFrame_slots x s
  cases ho : (s.il.get x).openFrame with
  | none => rwa [leaveFrame_none ho] at h
  | some j =>
    rw [ho] at hs
    exact unwanted_of_set hs (by simp) h

theorem not_unwanted_of_free {s : State} (h : ∀ c, c ∈ s.fpc.slots → c = .free) (k : Nat) : ¬ Unwanted s k := by
  rintro ⟨f, v, o, hk, -⟩
  cases h _ (List.mem_of_getElem? hk)

theorem wanted_act {c : Instr} {s t : State} (h : HoldBase s) (hl : Alive s) (ha : PoolAct c s t) (k : Nat) : ¬ Unwanted t k := by
  intro hk
  have hw := h.wanted k
  cases ha with
  | same e => exact hw (unwanted_congr e hk)
  | planned p hp hq hi e =>
    exact not_unwanted_of_free (s := takePlan p s) (fun c hc => (List.mem_replicate.mp hc).2) k (unwanted_congr e hk)
  | softReset p hc e => exact not_unwanted_of_free softResetPart_slots k (unwanted_congr e hk)
  | ingestReset x hc m => exact hw (unwanted_leaveFrame (m.unwanted hk : Unwanted (leaveFrame x s) k))
  | renditionReset l hc m => exact hw (m.unwanted (frames_releasedState l s) hk)
  | opened x p j ho hp hj e => exact hw (unwanted_of_set (fillSlot_slots x p j s) (by simp) (unwanted_congr e hk))
  | waits x tag p due ho hp e => exact hw (unwanted_congr e hk : Unwanted (joinWait x tag p due s) k)
  | waitOver x e => exact hw (unwanted_congr e hk : Unwanted (dropWait x s) k)
  | rowWritten x j ho e =>
    obtain ⟨q, m, hj⟩ := (hl.1.filling x j).mpr ho
    refine hw (unwanted_of_set (t := s.setSlot j (addRow (s.slot j))) (v := addRow (s.slot j)) rfl ?_ (unwanted_congr e hk))
    rw [slot_of_getElem? hj]
    simp [addRow]
  | seals x j y p n u ho hj hu e =>
    exact hw (unwanted_of_set (t := sealedState x j y p s)
      (v := .queued { source := y, number := s.fpc.nextFrame.get x, pts := p, arrival := s.tcu.time })
      rfl (by simp) (unwanted_congr hu (unwanted_start (unwanted_congr e hk))))
  | abandoned x j ho m => exact hw (unwanted_leaveFrame (m.unwanted hk))
  | rewindowed l b v hb e => exact hw (unwanted_congr e hk : Unwanted (s.modRl l _) k)
  | bound l x v hb e => exact hw (unwanted_congr e hk : Unwanted (bindFresh l x v s) k)
  | unbound l b hb hh hwc m => exact hw (m.unwanted (frames_unboundState l b.source s) hk)
  | rebound l b x v u hb hh hwc hu e =>
    exact hw (hu.unwanted (frames_unboundState l b.source s) (unwanted_congr e hk : Unwanted (bindFresh l x v u) k))
  | claimed l b j n hb hwc hh hx hn ha ht =>
    obtain ⟨cur, f, v, c, o, hj, m⟩ := ht
    exact hw (m.unwanted frames_claimedState hk)
  | claimWaits l d hb hh e => exact hw (unwanted_congr e hk : Unwanted (s.modRl l _) k)
  | claimOver l e => exact hw (unwanted_congr e hk : Unwanted (s.modRl l _) k)
  | released l j e hc hh m => exact hw (m.unwanted (frames_returnedState l j s) hk)
  | row c₀ c₁ hc hm hn e => exact hw (unwanted_congr e hk : Unwanted (withCtx (some c₁) s) k)
  | completes c₀ c₁ hc hm hn m =>
    obtain ⟨hb, hl'⟩ := h.onward hl hc hm.slot
    exact wanted_completed hb.wanted hl'.1 m k hk

/-- The fall of RSTN ends the waiting claims and leaves holds and owed sets. -/
theorem Kept.halted {s t : State} (h : Kept s) (e : execRstnAsserted s = .next t) : Kept t := by
  cases e
  have get : ∀ l, (s.rl.map (fun r => { r with link := stopLink r.link, pendingClaim := none, fetch := none, bandBuffer := none })).get l =
      { s.rl.get l with link := stopLink (s.rl.get l).link, pendingClaim := none, fetch := none, bandBuffer := none } :=
    fun l => PerRL.get_map ..
  refine ⟨fun k => ?_, fun l => ?_, fun k x l hx hg => ?_⟩
  · simp only [named, get]
    exact h.counts k
  · have hl := h.lanes l
    refine ⟨?_, ?_, fun e he => ?_, fun hw => ?_⟩
    · simp only [get]
      exact hl.few
    · simp only [get]
      exact hl.distinct
    · simp only [get] at he
      obtain ⟨b, m, f, hb, hm, h⟩ := hl.entries e he
      exact ⟨b, m, f, by simp only [get]; exact hb, by simp only [get]; exact hm, h⟩
    · simp only [get] at hw
      cases hw
  · have := h.owed k x l hx hg
    simpa only [State.boundTo, get] using this

theorem HoldBase.change {c : Instr} {s t : State} (hc : PoolChange c s t) (h : HoldBase s) : Kept t ∧ ∀ k, ¬ Unwanted t k := by
  cases hc with
  | same e => exact ⟨h.kept.congr e, fun k hk => h.wanted k (unwanted_congr e hk)⟩
  | acts hr ha =>
    have hl := (lifeLaw_iff s).mp h.life hr
    exact ⟨Kept.act h hl ha, wanted_act h hl ha⟩
  | startUp hc r e =>
    refine ⟨Kept.congr e (.of_free noSlot_startUp (by intro l; cases l <;> rfl) (by intro l; cases l <;> rfl)), fun k hk => ?_⟩
    exact not_unwanted_of_free (s := { State.reset with rstnLow := r }) noSlot_startUp k (unwanted_congr e hk)
  | halted e =>
    refine ⟨h.kept.halted e, fun k hk => h.wanted k ?_⟩
    obtain ⟨f, v, o, hk, ho⟩ := hk
    exact ⟨f, v, o, (halted_fpc e).1 ▸ hk, ho⟩

theorem SafeState.holdBase {s : State} (h : SafeState s) (hr : Recent s) : HoldBase s := by
  obtain ⟨-, -, -, -, -, -, -, hl, -, -, -, hh, ho, hn, -⟩ := h
  obtain ⟨hk, hw⟩ := (holdLaw_and_owedLaw_iff s).mp ⟨hh, ho⟩
  exact ⟨hl, (numberLaw_iff s).mp hn, hr, hk, hw⟩

/-- Settles O56: hold counts with the lanes' lists and owed sets with the bindings through every act on the pool; the free checks of
each act leave no STALE slot unheld and unwanted. -/
theorem stepKeepsHolds : Obligations.StepKeepsHolds := by
  refine ⟨fun s t h hr ht => ?_, fun s k h => ?_⟩
  · exact (holdLaw_and_owedLaw_iff t).mpr (step_keeps (fun e h => h.congr e) HoldBase.change (h.holdBase hr) ht)
  · rw [h.1 k]
    exact List.countP_le_length

end Sys2Proof.Machine
end

section
/-! SUPPORT for O59. A frame under hold stays in its slot with its verdict, and no fewer hold it, through every act on the pool but
releases, resets and what resets a lane. -/

namespace Sys2Proof.Machine

open Sys2Proof Sys2Proof.Claims

/-- The slot shows frame f with verdict v, and at least n lanes hold it. -/
def Shown (f : SealedFrame) (v : Verdict) (n : Nat) (c : Slot) : Prop := ∃ cur h o, c = .analysed cur f v h o ∧ n ≤ h

section
variable {f : SealedFrame} {v : Verdict} {n : Nat} {c : Slot}

theorem Shown.holds (h : Shown f v n c) : n ≤ slotHolds c := by
  obtain ⟨cur, m, o, rfl, hm⟩ := h
  exact hm

theorem Shown.verdict (h : Shown f v n c) : verdictFrame c = some f := by
  obtain ⟨cur, m, o, rfl, -⟩ := h
  rfl

theorem Shown.addHold (h : Shown f v n c) : Shown f v n (addHold c) := by
  obtain ⟨cur, m, o, rfl, hm⟩ := h
  exact ⟨cur, m + 1, o, rfl, by omega⟩

theorem Shown.leaveOwed (h : Shown f v n c) (l : RLane) : Shown f v n (leaveOwed l c) := by
  obtain ⟨cur, m, o, rfl, hm⟩ := h
  exact ⟨cur, m, _, rfl, hm⟩

theorem Shown.leaveAtMost (h : Shown f v n c) (l : RLane) (x : Src) (m : FrameNo) : Shown f v n (leaveAtMost l x m c) := by
  unfold Machine.leaveAtMost
  split
  · exact h.leaveOwed l
  · exact h

/-- Another slot is set, or one that nothing holds or that shows no verdict. -/
theorem Shown.set {s t : State} {k j : Nat} {old w : Slot} (h : Shown f v n (s.slot k)) (hj : s.fpc.slots[j]? = some old)
    (ho : ¬ Shown f v n old) (ht : t.fpc.slots = s.fpc.slots.set j w) : Shown f v n (t.slot k) := by
  rw [slot_set hj ht, if_neg]
  · exact h
  · rintro rfl
    rw [slot_of_getElem? hj] at h
    exact ho h

theorem Shown.congr {s t : State} (e : t.fpc.slots = s.fpc.slots) {k : Nat} (h : Shown f v n (s.slot k)) : Shown f v n (t.slot k) := by
  rw [State.slot, e]
  exact h

theorem not_shown_of_unheld (hn : 1 ≤ n) (h : slotHolds c = 0) : ¬ Shown f v n c := fun hs => by
  have := hs.holds
  omega

theorem not_shown_of_unanalysed (h : verdictFrame c = none) : ¬ Shown f v n c := fun hs => by
  rw [hs.verdict] at h
  cases h

section
variable (hn : 1 ≤ n) {s t : State} {k : Nat}
include hn

theorem Shown.fill (h : Shown f v n (s.slot k)) {x : Src} {p : Pts} {j : Nat} (hj : Fillable x j s) :
    Shown f v n ((fillSlot x p j s).slot k) := by
  obtain ⟨c, hj, hc⟩ := hj.unheld
  exact h.set hj (not_shown_of_unheld hn hc) (fillSlot_slots x p j s)

theorem Shown.move (h : Shown f v n (s.slot k)) (m : Move s t) : Shown f v n (t.slot k) := by
  cases m with
  | same e => exact h.congr (pool_slots e)
  | serve w j hw hj e => exact (Shown.fill hn (s := unlist w.source s) h hj).congr (pool_slots e)
  | free j g w o hj e => exact (h.set (t := s.setSlot j .free) hj (not_shown_of_unheld hn rfl) rfl).congr (pool_slots e)

theorem Shown.aftermath (h : Shown f v n (s.slot k)) (m : Aftermath s t) : Shown f v n (t.slot k) :=
  m.keeps (P := fun u => Shown f v n (u.slot k)) (fun _ _ h m => h.move hn m) h

omit hn in
theorem Shown.start (h : Shown f v n (s.slot k)) : Shown f v n ((startAnalysis s).slot k) :=
  startAnalysis_keeps (P := fun u => Shown f v n (u.slot k)) (fun e h => h.congr (pool_slots e)) h (fun _ => h)
    fun j rest g _ _ hj => h.set (t := startedState j rest g s) hj (not_shown_of_unanalysed rfl) rfl

omit hn in
theorem Shown.leaveFrame (h : Shown f v n (s.slot k)) (hl : PoolLife s) (x : Src) : Shown f v n ((leaveFrame x s).slot k) := by
  have hs := leaveFrame_slots x s
  cases ho : (s.il.get x).openFrame with
  | none => rw [leaveFrame_none ho]; exact h
  | some j =>
    rw [ho] at hs
    obtain ⟨q, m, hj⟩ := (hl.filling x j).mpr ho
    exact h.set hj (not_shown_of_unanalysed rfl) hs

omit hn in
/-- The frame that a new CURRENT frame supersedes becomes STALE with the holds it has. -/
theorem Shown.supersede (h : Shown f v n (s.slot k)) {j : Nat} {g : SealedFrame} (w : Verdict)
    (hj : s.fpc.slots[j]? = some (.analysing g)) : Shown f v n ((supersede g.source j g w s).slot k) := by
  have hstale : Shown f v n (({ s with fpc := { s.fpc with slots := staleSlots g.source s } } : State).slot k) := by
    rcases staleSlots_cases g.source s with e | ⟨i, cur, d, w', m, o, hi, e⟩
    · exact h.congr e
    · rw [slot_set hi e]
      split
      · next hk =>
        rw [hk, slot_of_getElem? hi] at h
        obtain ⟨cur', m', o', hs, hm⟩ := h
        cases hs
        exact ⟨false, m, o, rfl, hm⟩
      · exact h
  rw [supersede_eq]
  exact hstale.set (w := .analysed true g w 0 (boundSet g.source s)) (staleSlots_analysing hj) (not_shown_of_unanalysed rfl) rfl

theorem Shown.claimed (h : Shown f v n (s.slot k)) {l : RLane} {b : Binding} {j : Nat} (ht : Taken l b j s t) :
    Shown f v n (t.slot k) := by
  obtain ⟨cur, g, w, m, o, hj, m⟩ := ht
  refine Shown.aftermath hn ?_ m.moves
  rw [claimedState_slot hj]
  refine Shown.leaveAtMost ?_ l _ _
  split
  · exact h.addHold
  · exact h

theorem Shown.pendingSteps (h : Shown f v n (s.slot k)) {x : Src} {j : Nat} (m : Relation.ReflTransGen (PendingStep x j) s t) :
    Shown f v n (t.slot k) := by
  induction m with
  | refl => exact h
  | tail _ m ih =>
    cases m with
    | same e => exact ih.congr (pool_slots e)
    | taken l b hb hx hp ht => exact ih.claimed hn ht

theorem Shown.completed (h : Shown f v n (s.slot k)) {c : AnalysisCtx} (m : Completed c s t) : Shown f v n (t.slot k) := by
  cases m with
  | lost u hk hu e => exact (Shown.start (Shown.congr (pool_slots hu) (h : Shown f v n ((withCtx none s).slot k)))).congr (pool_slots e)
  | current g w a b d u hk hv hc hac ha hb hd hj hu e =>
    have h₁ := ((h.supersede w hk).congr (pool_slots ha)).pendingSteps hn hb
    have h₂ := h₁.aftermath hn hd
    exact (Shown.start ((show Shown f v n ((withCtx none d).slot k) from h₂).congr (pool_slots hu))).congr (pool_slots e)

theorem Shown.unbound (h : Shown f v n (s.slot k)) {l : RLane} {x : Src} (m : Settled s.fpc.slots (unboundState l x s) t) :
    Shown f v n (t.slot k) := by
  refine Shown.aftermath hn ?_ m.moves
  rw [unboundState_slot]
  split
  · exact h.leaveOwed l
  · exact h

/-- What may take a held frame from its slot: a release, a reset, or what resets a lane. -/
def Releases : Instr → Bool
  | .powerOnReset | .boardReset | .softReset _ | .laneReset _ | .linkLoss _ | .recordReceived _ _ | .release _ => true
  | _ => false

omit hn in
theorem releases_of_mayResetLane {c : Instr} (h : mayResetLane c = true) : Releases c = true := by
  cases c with
  | laneReset | linkLoss | recordReceived => rfl
  | _ => cases h

theorem Shown.act {c : Instr} (hc : Releases c = false) (h : Shown f v n (s.slot k)) (hl : Alive s) (ha : PoolAct c s t) :
    Shown f v n (t.slot k) := by
  cases ha with
  | same e => exact h.congr (pool_slots e)
  | planned p hp hq hi e =>
    obtain ⟨cur, m, o, hk, -⟩ := h
    cases poolIdle_slots hi _ (List.mem_of_getElem? (getElem?_of_slot hk (by simp)))
  | softReset p hs e => rw [hs] at hc; cases hc
  | ingestReset x hr m => rw [releases_of_mayResetLane hr] at hc; cases hc
  | renditionReset l hr m => rw [releases_of_mayResetLane hr] at hc; cases hc
  | opened x p j ho hp hj e => exact (h.fill hn hj).congr (pool_slots e)
  | waits x tag p due ho hp e => exact h.congr (pool_slots e)
  | waitOver x e => exact h.congr (pool_slots e)
  | rowWritten x j ho e =>
    obtain ⟨q, m, hj⟩ := (hl.1.filling x j).mpr ho
    exact (h.set (t := s.setSlot j (addRow (s.slot j))) hj (not_shown_of_unanalysed rfl) rfl).congr (pool_slots e)
  | seals x j y p m u ho hj hu e =>
    have : Shown f v n ((sealedState x j y p s).slot k) := h.set hj (not_shown_of_unanalysed rfl) rfl
    exact (Shown.start (this.congr (pool_slots hu))).congr (pool_slots e)
  | abandoned x j ho m => exact (h.leaveFrame hl.1 x).aftermath hn m
  | rewindowed l b w hb e => exact h.congr (pool_slots e)
  | bound l x w hb e => exact h.congr (pool_slots e)
  | unbound l b hb hh hw m => exact h.unbound hn m
  | rebound l b x w u hb hh hw hu e => exact (h.unbound hn hu).congr (pool_slots e)
  | claimed l b j m hb hw hh hx hm ha ht => exact h.claimed hn ht
  | claimWaits l d hb hh e => exact h.congr (pool_slots e)
  | claimOver l e => exact h.congr (pool_slots e)
  | released l j e hr hh m =>
    obtain ⟨lane, rfl⟩ := hr
    cases hc
  | row c₀ c₁ hctx hm hr e => exact h.congr (pool_slots e)
  | completes c₀ c₁ hctx hm hr m => exact Shown.completed hn (s := withCtx (some c₁) s) h m

theorem Shown.change {c : Instr} (hc : Releases c = false) (h : Shown f v n (s.slot k)) (hl : LifeLaw s) (m : PoolChange c s t) :
    Shown f v n (t.slot k) := by
  cases m with
  | same e => exact h.congr (pool_slots e)
  | acts hr ha => exact h.act hn hc ((lifeLaw_iff s).mp hl hr) ha
  | startUp hs r e =>
    cases c with
    | powerOnReset => cases hc
    | boardReset => cases hc
    | _ => cases hs
  | halted e => exact h.congr (halted_fpc e).1

end

/-- No command but a release, a reset, or what resets a lane takes a held frame from its slot. -/
theorem exec_shown {c : Instr} {s t : State} {k : Nat} (hc : Releases (performed c s) = false) (hl : LifeLaw s)
    (ht : exec c s = .next t) {m : Nat} (h : Shown f v (m + 1) (s.slot k)) : Shown f v (m + 1) (t.slot k) := by
  obtain ⟨u, hu, hch⟩ := exec_change ht
  exact Shown.change (Nat.le_add_left 1 m) hc (h.congr (pool_slots hu)) (hl.congr (frames_of_pool hu)) hch

end

end Sys2Proof.Machine
end

section
/-! SUPPORT. The settings of the part with the bytes of the DRAM, and the operations that leave all of them alone. -/

namespace Sys2Proof.Machine

open Sys2Proof Sys2Proof.Claims

/-! ### The settings -/

/-- The settings of the Chapter Log and Marker Router (R157, R163, R165, R168). -/
structure RouterSettings where
  generators : List Generator
  mgmtSubs : BitVec 6
  line0 : Bool × Nat
  line1 : Bool × Nat
  chapters : Src → Bool × Nat

def Router.settings (c : Router) : RouterSettings where
  generators := c.generators
  mgmtSubs := c.mgmtSubs
  line0 := (c.m0.enabled, c.m0.width)
  line1 := (c.m1.enabled, c.m1.width)
  chapters x := ((c.chapters.get x).enabled, (c.chapters.get x).gap)

/-- The settings of the Timebase and Cadence Unit (R146, R155). -/
structure TimeSettings where
  cue : CueSettings
  cadence : Src → Nat × Nat

def Timebase.settings (t : Timebase) : TimeSettings where
  cue := t.cueSettings
  cadence x := ((t.cadence.get x).interval, (t.cadence.get x).stallLimit)

/-- The limits of the lanes and the pool (R25, R33, R97). -/
structure LimitSettings where
  poolLow : Nat
  openLimit : Src → Nat
  claimLimit : RLane → Nat

/-- What the manual calls a setting, with the plan, the lanes' subscriptions and the bytes of the DRAM. -/
structure SettingsView where
  mem : List Host.Cell
  plan : Option Plan
  entries : PerSource (List Attr)
  stencil : Stencil
  detect : PerSource DetectSettings
  schedule : Schedule
  pendingSchedule : Option Schedule
  time : TimeSettings
  router : RouterSettings
  limits : LimitSettings
  subs : RLane → BitVec 6

def State.settings (s : State) : SettingsView where
  mem := s.mem
  plan := s.fpc.plan
  entries := s.attr.entries
  stencil := s.attr.stencil
  detect := s.cd.settings
  schedule := s.ms.schedule
  pendingSchedule := s.ms.pendingSchedule
  time := s.tcu.settings
  router := s.clr.settings
  limits := { poolLow := s.fpc.poolLow, openLimit := fun x => (s.il.get x).openLimit, claimLimit := fun l => (s.rl.get l).claimLimit }
  subs l := (s.rl.get l).subs

/-! ### Updates of a lane and of a unit -/

theorem settings_modIl (s : State) (x : Src) (f : IngestLane → IngestLane)
    (h : (f (s.il.get x)).openLimit = (s.il.get x).openLimit) : (s.modIl x f).settings = s.settings := by
  have : (fun y => ((s.modIl x f).il.get y).openLimit) = fun y => (s.il.get y).openLimit := by
    rw [State.modIl_il, PerSource.comp_get_set IngestLane.openLimit, h]
    exact Function.update_eq_self x fun y => (s.il.get y).openLimit
  simp only [State.settings, this]
  rfl

/-- A rendition lane's update keeps the settings but for the lane's subscription. -/
theorem settings_modRl_eq (s : State) (l : RLane) (f : RenditionLane → RenditionLane)
    (h : (f (s.rl.get l)).claimLimit = (s.rl.get l).claimLimit) :
    (s.modRl l f).settings = { s.settings with subs := Function.update s.settings.subs l (f (s.rl.get l)).subs } := by
  have hc : (fun j => ((s.modRl l f).rl.get j).claimLimit) = fun j => (s.rl.get j).claimLimit := by
    rw [State.modRl_rl, PerRL.comp_get_set RenditionLane.claimLimit, h]
    exact Function.update_eq_self l fun j => (s.rl.get j).claimLimit
  have hs : (fun j => ((s.modRl l f).rl.get j).subs) = Function.update (fun j => (s.rl.get j).subs) l (f (s.rl.get l)).subs := by
    rw [State.modRl_rl, PerRL.comp_get_set RenditionLane.subs]
  simp only [State.settings, hc, hs]
  rfl

theorem settings_modRl (s : State) (l : RLane) (f : RenditionLane → RenditionLane)
    (h : (f (s.rl.get l)).claimLimit = (s.rl.get l).claimLimit) (hs : (f (s.rl.get l)).subs = (s.rl.get l).subs) :
    (s.modRl l f).settings = s.settings := by
  rw [settings_modRl_eq s l f h, hs]
  exact congrArg (fun u => { s.settings with subs := u }) (Function.update_eq_self l s.settings.subs)

@[simp] theorem settings_modLink (s : State) (lane : Lane) (f : Link → Link) : (s.modLink lane f).settings = s.settings := by
  cases lane with
  | il x => exact settings_modIl s x _ rfl
  | rl l => exact settings_modRl s l _ rfl rfl

@[simp] theorem settings_modCounters (s : State) (x : Src) (f : SourceCounters → SourceCounters) :
    (s.modCounters x f).settings = s.settings := rfl

@[simp] theorem settings_setSlot (s : State) (k : Nat) (v : Slot) : (s.setSlot k v).settings = s.settings := rfl
@[simp] theorem settings_mapSlots (s : State) (f : Slot → Slot) : (s.mapSlots f).settings = s.settings := rfl

/-- A cadence record that keeps its interval and stall limit. -/
theorem cadence_set_settings (t : Timebase) (x : Src) (c : Cadence) (hi : c.interval = (t.cadence.get x).interval)
    (hl : c.stallLimit = (t.cadence.get x).stallLimit) : ({ t with cadence := t.cadence.set x c } : Timebase).settings = t.settings := by
  have : (fun y => (((t.cadence.set x c).get y).interval, ((t.cadence.set x c).get y).stallLimit)) =
      fun y => ((t.cadence.get y).interval, (t.cadence.get y).stallLimit) := by
    funext y
    rw [PerSource.get_set]
    split
    · next e => rw [e, hi, hl]
    · rfl
  simp only [Timebase.settings, this]

theorem settings_tcu (s : State) {t : Timebase} (h : t.settings = s.tcu.settings) : ({ s with tcu := t } : State).settings = s.settings := by
  simp only [State.settings, h]

theorem settings_clr (s : State) {c : Router} (h : c.settings = s.clr.settings) : ({ s with clr := c } : State).settings = s.settings := by
  simp only [State.settings, h]

theorem settings_ms (s : State) {m : Scheduler} (h : m.schedule = s.ms.schedule) (hp : m.pendingSchedule = s.ms.pendingSchedule) :
    ({ s with ms := m } : State).settings = s.settings := by
  simp only [State.settings, h, hp]

theorem settings_modCadence (s : State) (x : Src) (f : Cadence → Cadence)
    (hi : (f (s.tcu.cadence.get x)).interval = (s.tcu.cadence.get x).interval)
    (hl : (f (s.tcu.cadence.get x)).stallLimit = (s.tcu.cadence.get x).stallLimit) : (s.modCadence x f).settings = s.settings :=
  settings_tcu s (cadence_set_settings s.tcu x _ hi hl)

/-! ### Answers, notices and events -/

@[simp] theorem settings_pushAnswer (lane : Lane) (a : Answer) (s : State) : (pushAnswer lane a s).settings = s.settings :=
  settings_modLink ..

@[simp] theorem settings_answerHead (lane : Lane) (c : AnswerCode) (b : List Byte) (s : State) :
    (answerHead lane c b s).settings = s.settings := by
  unfold answerHead
  split
  · rfl
  · exact settings_modLink ..

@[simp] theorem settings_placeNotice (l : RLane) (n : Notice) (s : State) : (placeNotice l n s).settings = s.settings := by
  unfold placeNotice
  apply settings_modRl <;> split <;> rfl

theorem pushMarker_settings (c : Nat) (e : Event) (r : Router) : (pushMarker c e r).settings = r.settings := by
  unfold pushMarker
  split <;> rfl

theorem pulseLine_settings (now : Stamp) (m : MarkerLine) :
    (pulseLine now m).enabled = m.enabled ∧ (pulseLine now m).width = m.width := by
  unfold pulseLine
  split <;> exact ⟨rfl, rfl⟩

theorem routeFiring_settings (now : Stamp) (c : Nat) (e : Event) (r : Router) : (routeFiring now c e r).settings = r.settings := by
  have hpush : (if r.mgmtSubs.getLsbD c then pushMarker c e r else r).settings = r.settings := by
    split
    · exact pushMarker_settings c e r
    · rfl
  unfold routeFiring
  generalize (if r.mgmtSubs.getLsbD c then pushMarker c e r else r) = q at hpush
  dsimp only
  rw [← hpush]
  split
  · simp only [Router.settings, pulseLine_settings]
  · split
    · simp only [Router.settings, pulseLine_settings]
    · rfl

@[simp] theorem settings_fireChannel (c : Nat) (e : Event) (s : State) : (fireChannel c e s).settings = s.settings :=
  (settings_clr _ (routeFiring_settings ..)).trans (foldl_keep State.settings _ (fun u l => by split <;> simp) rlAll s)

@[simp] theorem settings_fireEvent (e : Event) (s : State) : (fireEvent e s).settings = s.settings :=
  foldl_keep State.settings _ (fun u c => by split <;> simp) _ _

@[simp] theorem settings_notePoolLow (n : Nat) (s : State) : (notePoolLow n s).settings = s.settings := by
  unfold notePoolLow
  split <;> simp

@[simp] theorem settings_sendReady (k : Nat) (s : State) : (sendReady k s).settings = s.settings := by
  unfold sendReady
  split
  · exact foldl_keep State.settings _ (fun u l => by split <;> simp) _ _
  · rfl

@[simp] theorem settings_sendRepeats (x : Src) (n : FrameNo) (c : Count16) (s : State) :
    (sendRepeats x n c s).settings = s.settings :=
  foldl_keep State.settings _ (fun u l => by split <;> simp) _ _

@[simp] theorem settings_checkStall (x : Src) (n : FrameNo) (s : State) : (checkStall x n s).settings = s.settings := by
  unfold checkStall
  dsimp only
  split
  · rw [settings_fireEvent]
    exact settings_modCadence s x _ rfl rfl
  · rfl

@[simp] theorem settings_repeatFrame (x : Src) (n : FrameNo) (s : State) : (repeatFrame x n s).settings = s.settings := by
  simp only [repeatFrame, settings_checkStall, settings_sendRepeats, settings_modCounters]
  exact settings_modCadence s x _ rfl rfl

@[simp] theorem settings_captureCue (s : State) : (captureCue s).settings = s.settings := by
  unfold captureCue
  dsimp only
  split
  · rw [settings_fireEvent]; rfl
  · rfl

/-! ### The scheduler and the transmitter -/

theorem chargeGrant_settings (m : Scheduler) (r : Requester) (c : Nat) (j : Job) :
    (chargeGrant m r c j).schedule = m.schedule ∧ (chargeGrant m r c j).pendingSchedule = m.pendingSchedule := by
  unfold chargeGrant
  cases r with
  | rl l => dsimp only; split <;> exact ⟨rfl, rfl⟩
  | _ => exact ⟨rfl, rfl⟩

theorem dramFree_settings (m : Scheduler) :
    (dramFree m).schedule = m.schedule ∧ (dramFree m).pendingSchedule = m.pendingSchedule := by
  rcases dramFree_cases m with ⟨-, e⟩ | ⟨-, e⟩ <;> rw [e] <;> exact ⟨rfl, rfl⟩

theorem orphanBurst_settings (r : Requester) (m : Scheduler) :
    (orphanBurst r m).schedule = m.schedule ∧ (orphanBurst r m).pendingSchedule = m.pendingSchedule := by
  unfold orphanBurst
  split
  · split <;> exact ⟨rfl, rfl⟩
  · exact ⟨rfl, rfl⟩

@[simp] theorem settings_beginBand (r : Requester) (s : State) : (beginBand r s).settings = s.settings := by
  cases r with
  | rl l => exact settings_modRl _ _ _ rfl rfl
  | il x => rfl
  | det => rfl

@[simp] theorem settings_makeGrant (s : State) : (makeGrant s).settings = s.settings := by
  rcases makeGrant_cases s with h | ⟨r, c, -, -, -, -, h⟩
  · rw [h]
  · obtain ⟨hs, hp⟩ := chargeGrant_settings s.ms r c (jobOf s r)
    rw [h, settings_beginBand, settings_ms s hs hp]

@[simp] theorem settings_placeRequest (r : Requester) (c : Nat) (s : State) : (placeRequest r c s).settings = s.settings := by
  rw [placeRequest, settings_makeGrant]; rfl

@[simp] theorem settings_endBurst (s : State) : (endBurst s).settings = s.settings := by
  obtain ⟨hs, hp⟩ := dramFree_settings s.ms
  rw [endBurst, settings_makeGrant, settings_ms s hs hp]

@[simp] theorem settings_dropRequests (r : Requester) (s : State) : (dropRequests r s).settings = s.settings := by
  obtain ⟨hs, hp⟩ := orphanBurst_settings r (withdraw r s.ms)
  exact settings_ms s hs hp

@[simp] theorem settings_bufferBand (l : RLane) (b : Band) (s : State) : (bufferBand l b s).settings = s.settings :=
  settings_modRl _ _ _ rfl rfl

@[simp] theorem settings_bandSent (l : RLane) (s : State) : (bandSent l s).settings = s.settings := by
  unfold bandSent
  split
  · exact settings_modRl _ _ _ rfl rfl
  · split
    · rw [settings_answerHead]; exact settings_modRl _ _ _ rfl rfl
    · rw [settings_placeRequest]; exact settings_modRl _ _ _ rfl rfl

theorem settings_takeOutgoing {lane : Lane} {s t : State} {r : OutRecord} (h : takeOutgoing lane s = some (r, t)) :
    t.settings = s.settings := by
  rcases takeOutgoing_cases h with ⟨rest, rfl⟩ | ⟨l, n, rest, -, -, rfl⟩
  · exact settings_modLink ..
  · exact settings_modRl _ _ _ rfl rfl

@[simp] theorem settings_beginSend (lane : Lane) (s : State) : (beginSend lane s).settings = s.settings := by
  unfold beginSend
  split
  · rfl
  · split
    · next h => rw [settings_modLink, settings_takeOutgoing h]
    · rfl

@[simp] theorem settings_endSend (lane : Lane) (s : State) : (endSend lane s).settings = s.settings := by
  unfold endSend
  split
  · rfl
  · dsimp only
    split <;> simp

@[simp] theorem settings_queueRequest (lane : Lane) (r : Request) (s : State) : (queueRequest lane r s).settings = s.settings := by
  unfold queueRequest
  dsimp only
  split <;> simp

/-! ### The pool -/

@[simp] theorem settings_fillSlot (x : Src) (p : Pts) (k : Nat) (s : State) : (fillSlot x p k s).settings = s.settings :=
  settings_modIl _ _ _ rfl

@[simp] theorem settings_evictFrame (k : Nat) (s : State) : (evictFrame k s).settings = s.settings := by
  unfold evictFrame
  split
  · simp only [settings_fireEvent, settings_modCounters]
    refine foldl_keep State.settings _ (fun u l => ?_) rlAll s
    split
    · rw [settings_modRl _ _ _ rfl rfl, settings_placeNotice]
    · rfl
  · rfl

@[simp] theorem settings_serveOpen (x : Src) (p : Pts) (c : OpenChoice) (s : State) : (serveOpen x p c s).settings = s.settings := by
  cases c <;> simp [serveOpen]

@[simp] theorem settings_serveWaitList (s : State) : (serveWaitList s).settings = s.settings := by
  refine serveWaitList_inv (fun u => u.settings = s.settings) (fun u t hu ht => ?_) s rfl
  obtain ⟨e, c, -, -, rfl⟩ := serveWaitOnce_eq_some ht
  rw [settings_serveOpen]
  exact hu

@[simp] theorem settings_examineSlot (was : Slot) (k : Nat) (s : State) : (examineSlot was k s).settings = s.settings := by
  rcases examineSlot_cases was k s with h | h | ⟨f, v, o, -, -, h⟩ <;> rw [h] <;> simp

@[simp] theorem settings_settle (before : List Slot) (s : State) : (settle before s).settings = s.settings :=
  settle_inv (fun u => u.settings = s.settings) (fun _ _ _ hu => by rw [settings_examineSlot]; exact hu) before s rfl

@[simp] theorem settings_leaveSource (l : RLane) (x : Src) (s : State) : (leaveSource l x s).settings = s.settings := by
  simp [leaveSource]

@[simp] theorem settings_takeFrame (l : RLane) (b : Binding) (k : Nat) (s : State) : (takeFrame l b k s).settings = s.settings := by
  unfold takeFrame
  split
  · simp only [settings_answerHead, settings_settle]
    rw [settings_modRl _ _ _ rfl rfl, claimSlots, settings_mapSlots, settings_setSlot]
  · rfl

@[simp] theorem settings_startAnalysis (s : State) : (startAnalysis s).settings = s.settings := by
  rcases startAnalysis_cases s with h | ⟨k, rest, -, -, -, h⟩ | ⟨k, rest, f, -, -, -, h⟩ <;> rw [h]
  · rfl
  · rw [settings_placeRequest]; rfl

@[simp] theorem settings_resetIngestLane (x : Src) (s : State) : (resetIngestLane x s).settings = s.settings := by
  have hc : (clearedLane x s).settings = s.settings :=
    (settings_modIl (dropRequests (.il x) s) x _ rfl).trans (settings_dropRequests _ s)
  rw [resetIngestLane_eq]
  split
  · rw [settings_serveWaitList, settings_setSlot, hc]
  · exact hc

theorem settings_resetRenditionLane (l : RLane) (s : State) :
    (resetRenditionLane l s).settings = { s.settings with subs := Function.update s.settings.subs l 0 } := by
  have hd := settings_dropRequests (.rl l) s
  have := settings_modRl_eq (dropRequests (.rl l) s) l resetRenditionRecord rfl
  rw [hd] at this
  simp only [resetRenditionLane, settings_settle]
  exact this

end Sys2Proof.Machine
end

section
/-! O3: every command changes its own setting alone; and none but the end of an ingest burst writes the DRAM. -/

namespace Sys2Proof.Machine

open Sys2Proof Sys2Proof.Claims

/-! ### The detector and the lanes -/

theorem recordChapter_settings (c : Router) (f : SealedFrame) (m n : Nat) (r : ChapterReason) :
    (recordChapter c f m n r).settings = c.settings := by
  have hset : ({ c with chapters := c.chapters.set f.source { c.chapters.get f.source with last := some f.number } } : Router).settings =
      c.settings := by
    have : (fun y => (((c.chapters.set f.source { c.chapters.get f.source with last := some f.number }).get y).enabled,
        ((c.chapters.set f.source { c.chapters.get f.source with last := some f.number }).get y).gap)) =
        fun y => ((c.chapters.get y).enabled, (c.chapters.get y).gap) := by
      funext y
      rw [PerSource.get_set]
      split
      · next e => rw [e]
      · rfl
    simp only [Router.settings, this]
  unfold recordChapter appendChapter
  split
  · exact hset
  · exact hset

@[simp] theorem settings_supersede (x : Src) (k : Nat) (f : SealedFrame) (v : Verdict) (s : State) :
    (supersede x k f v s).settings = s.settings := by
  rw [supersede_eq]
  rfl

@[simp] theorem settings_servePendingClaims (x : Src) (k : Nat) (s : State) : (servePendingClaims x k s).settings = s.settings := by
  refine foldl_keep State.settings _ (fun u l => ?_) rlAll s
  split
  · split
    · exact settings_takeFrame ..
    · rfl
  · rfl

theorem settings_announced (k : Nat) (f : SealedFrame) (v : Verdict) (s : State) : (announced k f v s).settings = s.settings := by
  unfold announced
  dsimp only
  rw [settings_sendReady]
  split
  · rw [settings_clr _ (recordChapter_settings ..), settings_supersede]
  · exact settings_supersede ..

theorem settings_raised (f : SealedFrame) (v : Verdict) (why : Option ChapterReason) (s : State) :
    (raised f v why s).settings = s.settings := by
  unfold raised
  dsimp only
  split <;> split <;> simp

@[simp] theorem settings_completeFrame (k : Nat) (f : SealedFrame) (v : Verdict) (s : State) :
    (completeFrame k f v s).settings = s.settings := by
  have hb : (servePendingClaims f.source k (raised f v (decision f v s) (announced k f v s))).settings = s.settings := by
    rw [settings_servePendingClaims, settings_raised, settings_announced]
  rw [completeFrame_eq]
  dsimp only
  split
  · split
    · exact hb
    · rw [settings_examineSlot, hb]
  · exact hb

@[simp] theorem settings_completeAnalysis (c : AnalysisCtx) (s : State) : (completeAnalysis c s).settings = s.settings := by
  have drop : ∀ u : State, (withCtx none u).settings = u.settings := fun _ => rfl
  rw [completeAnalysis_eq, settings_startAnalysis, drop]
  split
  · rw [settings_completeFrame]; rfl
  · rfl

@[simp] theorem settings_rowStep (c : AnalysisCtx) (s : State) : (rowStep c s).settings = s.settings := by
  unfold rowStep
  dsimp only
  split
  · rw [settings_placeRequest]; rfl
  · rw [settings_completeAnalysis]; rfl

@[simp] theorem settings_sealSlot (x : Src) (k : Nat) (y : Src) (p : Pts) (s : State) : (sealSlot x k y p s).settings = s.settings := by
  unfold sealSlot
  simp only [settings_startAnalysis, settings_answerHead]
  rw [settings_modIl _ _ _ rfl]
  exact settings_tcu _ (cadence_set_settings s.tcu x (cadenceSealed s.tcu.time (s.tcu.cadence.get x)) rfl rfl)

@[simp] theorem settings_finishRow (x : Src) (s : State) : (finishRow x s).settings = s.settings := by
  unfold finishRow
  split
  · rfl
  · dsimp only
    rw [settings_answerHead, settings_modIl _ _ _ rfl]
    rfl

@[simp] theorem settings_openBody (x : Src) (r : Request) (s : State) : (openBody x r s).settings = s.settings := by
  unfold openBody
  split
  · simp
  · split
    · simp
    · split
      · simp
      · dsimp only
        split
        · simp
        · unfold waitOrDrop
          dsimp only
          split
          · simp
          · exact settings_modIl _ _ _ rfl

@[simp] theorem settings_putBody (x : Src) (r : Request) (s : State) : (putBody x r s).settings = s.settings := by
  unfold putBody
  split
  · simp
  · split
    · simp
    · dsimp only
      split
      · simp
      · split
        · simp
        · rw [settings_placeRequest, settings_modIl _ _ _ rfl]

@[simp] theorem settings_sealBody (x : Src) (r : Request) (s : State) : (sealBody x r s).settings = s.settings := by
  unfold sealBody
  split
  · simp
  · split
    · simp
    · split
      · split <;> simp
      · simp

@[simp] theorem settings_abandonBody (x : Src) (r : Request) (s : State) : (abandonBody x r s).settings = s.settings := by
  unfold abandonBody
  split
  · simp
  · split
    · simp
    · dsimp only
      rw [settings_serveWaitList, settings_answerHead, settings_modIl _ _ _ rfl]
      rfl

theorem settings_unbindLane (l : RLane) (s : State) :
    (s.modRl l (fun r => { r with binding := none, mark := none })).settings = s.settings := settings_modRl _ _ _ rfl rfl

@[simp] theorem settings_bindFresh (l : RLane) (x : Src) (v : Window) (s : State) : (bindFresh l x v s).settings = s.settings :=
  settings_modRl _ _ _ rfl rfl

@[simp] theorem settings_applyBind (l : RLane) (x : Src) (v : Window) (s : State) : (applyBind l x v s).settings = s.settings := by
  unfold applyBind
  split
  · simp
  · split
    · exact settings_modRl _ _ _ rfl rfl
    · rw [settings_bindFresh, settings_leaveSource, settings_unbindLane]

@[simp] theorem settings_bindBody (l : RLane) (r : Request) (s : State) : (bindBody l r s).settings = s.settings := by
  unfold bindBody
  split
  · simp
  · split
    · simp
    · dsimp only
      split
      · simp
      · split
        · simp
        · split <;> simp

@[simp] theorem settings_unbindBody (l : RLane) (r : Request) (s : State) : (unbindBody l r s).settings = s.settings := by
  unfold unbindBody
  split
  · simp
  · split
    · simp
    · split
      · simp
      · rw [settings_answerHead, settings_leaveSource, settings_unbindLane]

theorem settings_claimChecked {l : RLane} {r : Request} {g : Binding → State → State} {s : State}
    (h : ∀ b, (g b s).settings = s.settings) : (claimChecked l r g s).settings = s.settings := by
  unfold claimChecked
  split
  · simp
  · split
    · simp
    · split
      · simp
      · split
        · simp
        · exact h _

@[simp] theorem settings_nextBody (l : RLane) (t : Byte) (b : Binding) (s : State) : (nextBody l t b s).settings = s.settings := by
  unfold nextBody
  split
  · simp
  · unfold waitClaim
    dsimp only
    split
    · simp
    · exact settings_modRl _ _ _ rfl rfl

@[simp] theorem settings_latestBody (l : RLane) (b : Binding) (s : State) : (latestBody l b s).settings = s.settings := by
  unfold latestBody
  split
  · simp
  · split <;> simp

@[simp] theorem settings_numberBody (l : RLane) (n : FrameNo) (b : Binding) (s : State) :
    (numberBody l n b s).settings = s.settings := by
  unfold numberBody
  split
  · simp
  · split
    · simp
    · split
      · simp
      · split <;> simp

@[simp] theorem settings_releaseBody (l : RLane) (r : Request) (s : State) : (releaseBody l r s).settings = s.settings := by
  unfold releaseBody
  split
  · simp
  · dsimp only
    split
    · simp
    · rw [settings_answerHead, settings_settle, settings_setSlot, settings_modRl _ _ _ rfl rfl]

@[simp] theorem settings_maskChecked (l : RLane) (r : Request) (m : Nat → State → TileSet) (s : State) :
    (maskChecked l r m s).settings = s.settings := by
  unfold maskChecked
  split
  · simp
  · dsimp only
    split
    · simp
    · split <;> simp

@[simp] theorem settings_fetchBody (l : RLane) (r : Request) (s : State) : (fetchBody l r s).settings = s.settings := by
  unfold fetchBody
  split
  · simp
  · split
    · simp
    · dsimp only
      split
      · simp
      · split
        · rw [settings_placeRequest, settings_modRl _ _ _ rfl rfl]
        · exact settings_modRl _ _ _ rfl rfl

theorem settings_subscribeBody (l : RLane) (r : Request) (s : State) : (subscribeBody l r s).settings =
    { s.settings with subs := Function.update s.settings.subs l (BitVec.ofNat 6 (field r.payload 0 1)) } := by
  rw [subscribeBody, settings_answerHead, settings_modRl_eq _ _ _ rfl]

/-! ### What a command changes -/

/-- What a command changes of the settings and the DRAM: its own part alone. -/
inductive SettingsChange (c : Instr) (s t : State) : Prop
  | same (h : t.settings = s.settings)
  | written (hc : c = .ingestBurstComplete) (h : { t.settings with mem := s.mem } = s.settings)
  | planned (hc : ∃ p, c = .setPlan p) (h : { t.settings with plan := s.fpc.plan } = s.settings)
  | attrs (hc : ∃ p, c = .attrWrite p) (h : { t.settings with entries := s.attr.entries } = s.settings)
  | badge (hc : ∃ p, c = .badgeWrite p) (h : { t.settings with stencil := s.attr.stencil } = s.settings)
  | detect (hc : ∃ p, c = .setDetect p) (h : { t.settings with detect := s.cd.settings } = s.settings)
  | refreshed (hc : c = .refreshComplete)
      (h : { t.settings with schedule := s.ms.schedule, pendingSchedule := s.ms.pendingSchedule } = s.settings)
  | scheduled (hc : ∃ p, c = .setSchedule p) (h : { t.settings with pendingSchedule := s.ms.pendingSchedule } = s.settings)
  | cued (hc : ∃ p, c = .setCue p)
      (h : { t.settings with time := { t.tcu.settings with cue := s.tcu.cueSettings } } = s.settings)
  | paced (hc : ∃ p, c = .setCadence p)
      (h : { t.settings with time := { t.tcu.settings with cadence := s.tcu.settings.cadence } } = s.settings)
  | routed (hc : ∃ p, c = .setRoute p)
      (h : { t.settings with router := { s.clr.settings with chapters := t.clr.settings.chapters } } = s.settings)
  | chaptered (hc : ∃ p, c = .setChapters p)
      (h : { t.settings with router := { t.clr.settings with chapters := s.clr.settings.chapters } } = s.settings)
  | limited (hc : ∃ p, c = .setLaneLimits p) (h : { t.settings with limits := s.settings.limits } = s.settings)
  | subscribed (l : RLane) (hc : c = .subscribe (.rl l)) (m : BitVec 6)
      (h : t.settings = { s.settings with subs := Function.update s.settings.subs l m })
  | laneReset (l : RLane) (hc : (∃ p, c = .laneReset p) ∨ c = .linkLoss (.rl l) ∨ ∃ b, c = .recordReceived (.rl l) b)
      (h : t.settings = { s.settings with subs := Function.update s.settings.subs l 0 })

/-- A change speaks of the settings alone. -/
theorem SettingsChange.of_settings {c : Instr} {s t s' t' : State} (h : SettingsChange c s t) (hs : s'.settings = s.settings)
    (ht : t'.settings = t.settings) : SettingsChange c s' t' := by
  have fld : ∀ {α : Type} (g : SettingsView → α), g t'.settings = g t.settings := fun g => congrArg g ht
  have flds : ∀ {α : Type} (g : SettingsView → α), g s'.settings = g s.settings := fun g => congrArg g hs
  cases h with
  | same h => exact .same (ht.trans (h.trans hs.symm))
  | written hc h => exact .written hc (by rw [ht, hs, show s'.mem = s.mem from flds SettingsView.mem]; exact h)
  | planned hc h => exact .planned hc (by rw [ht, hs, show s'.fpc.plan = s.fpc.plan from flds SettingsView.plan]; exact h)
  | attrs hc h => exact .attrs hc (by rw [ht, hs, show s'.attr.entries = s.attr.entries from flds SettingsView.entries]; exact h)
  | badge hc h => exact .badge hc (by rw [ht, hs, show s'.attr.stencil = s.attr.stencil from flds SettingsView.stencil]; exact h)
  | detect hc h => exact .detect hc (by rw [ht, hs, show s'.cd.settings = s.cd.settings from flds SettingsView.detect]; exact h)
  | refreshed hc h =>
    exact .refreshed hc (by
      rw [ht, hs, show s'.ms.schedule = s.ms.schedule from flds SettingsView.schedule,
        show s'.ms.pendingSchedule = s.ms.pendingSchedule from flds SettingsView.pendingSchedule]
      exact h)
  | scheduled hc h =>
    exact .scheduled hc (by
      rw [ht, hs, show s'.ms.pendingSchedule = s.ms.pendingSchedule from flds SettingsView.pendingSchedule]
      exact h)
  | cued hc h =>
    exact .cued hc (by
      rw [ht, hs, show t'.tcu.settings = t.tcu.settings from fld SettingsView.time,
        show s'.tcu.cueSettings = s.tcu.cueSettings from flds fun v => v.time.cue]
      exact h)
  | paced hc h =>
    exact .paced hc (by
      rw [ht, hs, show t'.tcu.settings = t.tcu.settings from fld SettingsView.time,
        show s'.tcu.settings = s.tcu.settings from flds SettingsView.time]
      exact h)
  | routed hc h =>
    exact .routed hc (by
      rw [ht, hs, show t'.clr.settings = t.clr.settings from fld SettingsView.router,
        show s'.clr.settings = s.clr.settings from flds SettingsView.router]
      exact h)
  | chaptered hc h =>
    exact .chaptered hc (by
      rw [ht, hs, show t'.clr.settings = t.clr.settings from fld SettingsView.router,
        show s'.clr.settings = s.clr.settings from flds SettingsView.router]
      exact h)
  | limited hc h => exact .limited hc (by rw [ht, hs]; exact h)
  | subscribed l hc m h => exact .subscribed l hc m (by rw [ht, hs]; exact h)
  | laneReset l hc h => exact .laneReset l hc (by rw [ht, hs]; exact h)

theorem resetLane_settings {c : Instr} (lane : Lane) (s : State)
    (hc : (∃ p, c = .laneReset p) ∨ c = .linkLoss lane ∨ ∃ b, c = .recordReceived lane b) : SettingsChange c s (resetLane lane s) := by
  cases lane with
  | il x => exact .same (settings_resetIngestLane x (flagged (.il x) s))
  | rl l => exact .laneReset l hc (settings_resetRenditionLane l (flagged (.rl l) s))

/-! ### Management commands -/

/-- The command that a code and payload spell. -/
def commandOf (code : Byte) (p : List Byte) : Instr :=
  match code.toNat with
  | 1 => .setPlan p
  | 2 => .setDetect p
  | 3 => .setSchedule p
  | 4 => .setRoute p
  | 5 => .setCue p
  | 6 => .setCadence p
  | 7 => .setChapters p
  | 8 => .setLaneLimits p
  | 16 => .attrWrite p
  | 17 => .attrRead p
  | 18 => .badgeWrite p
  | 32 => .readStatus p
  | 33 => .readCounters p
  | 34 => .popChapters p
  | 35 => .readMarkers p
  | 36 => .readResetCause p
  | 37 => .clearResetCause p
  | 48 => .softReset p
  | 49 => .laneReset p
  | _ => .unknownCommand code p

theorem frameCommand_eq {code len : Byte} {p : List Byte} (h : frameComplete (code :: len :: p) = true) :
    frameCommand (code :: len :: p) = some (commandOf code p) := by
  simp only [frameCommand, h, Bool.not_true, Bool.false_eq_true, if_false]
  rfl

theorem commandOf_unknown {code : Byte} (h : commandCodes.contains code.toNat = false) (p : List Byte) :
    commandOf code p = .unknownCommand code p := by
  unfold commandOf
  split <;> simp_all [commandCodes]

theorem settings_writeAttr (x : Src) (v : Attr) (t : Nat) (s : State) :
    { (writeAttr x v t s).settings with entries := s.attr.entries } = s.settings := by
  unfold writeAttr
  dsimp only
  split
  · rfl
  · split <;> rfl

theorem SettingsChange.ofLength {c : Instr} {len : Nat} {p : List Byte} {r : Reply} {s : State} (h : SettingsChange c s r.state) :
    SettingsChange c s (Machine.ofLength len p r s).state := by
  rcases ofLength_cases len p r s with e | e <;> rw [e]
  · exact h
  · exact .same rfl

theorem replySetPlan_settings (p q : List Byte) (s : State) : SettingsChange (.setPlan q) s (replySetPlan p s).state := by
  simp only [replySetPlan]
  split
  · exact .same rfl
  · split
    · exact .same rfl
    · refine .planned ⟨q, rfl⟩ ?_
      have hl : (fun l => ((takePlan (planOf p) s).rl.get l).claimLimit) = fun l => (s.rl.get l).claimLimit := by
        funext l; cases l <;> rfl
      have hs : (fun l => ((takePlan (planOf p) s).rl.get l).subs) = fun l => (s.rl.get l).subs := by funext l; cases l <;> rfl
      have hc : (takePlan (planOf p) s).tcu.settings = s.tcu.settings := by
        simp only [Timebase.settings, takePlan, restartTimebase, PerSource.get_map]
      have hr : (takePlan (planOf p) s).clr.settings = s.clr.settings := by
        simp only [Router.settings, takePlan, restartChapters, PerSource.get_map]
      simp only [done, State.settings, hl, hs, hc, hr]
      rfl

theorem replySetLaneLimits_settings (p : List Byte) (s : State) :
    { (replySetLaneLimits p s).state.settings with limits := s.settings.limits } = s.settings := by
  have il : ∀ (x : Src) (n : Nat) (u : State) (m : LimitSettings),
      { (u.modIl x (fun r => { r with openLimit := n })).settings with limits := m } = { u.settings with limits := m } :=
    fun _ _ _ _ => rfl
  have rl : ∀ (l : RLane) (n : Nat) (u : State) (m : LimitSettings),
      { (u.modRl l (fun r => { r with claimLimit := n })).settings with limits := m } = { u.settings with limits := m } := by
    intro l n u m
    have : (fun j => ((u.modRl l (fun r => { r with claimLimit := n })).rl.get j).subs) = fun j => (u.rl.get j).subs := by
      rw [State.modRl_rl, PerRL.comp_get_set RenditionLane.subs]
      exact Function.update_eq_self l fun j => (u.rl.get j).subs
    simp only [State.settings, this]
    rfl
  have low : ∀ (n : Nat) (u : State) (m : LimitSettings),
      { ({ u with fpc := { u.fpc with poolLow := n } } : State).settings with limits := m } = { u.settings with limits := m } :=
    fun _ _ _ => rfl
  simp only [replySetLaneLimits, done]
  rw [low, rl, rl, rl, rl, il, il]

theorem softResetPart_settings (s : State) : (softResetPart s).settings = s.settings := by
  have ho : (fun x => ((softResetPart s).il.get x).openLimit) = fun x => (s.il.get x).openLimit := by funext x; cases x <;> rfl
  have hl : (fun l => ((softResetPart s).rl.get l).claimLimit) = fun l => (s.rl.get l).claimLimit := by funext l; cases l <;> rfl
  have hs : (fun l => ((softResetPart s).rl.get l).subs) = fun l => (s.rl.get l).subs := by funext l; cases l <;> rfl
  have hc : (softResetPart s).tcu.settings = s.tcu.settings := by
    simp only [Timebase.settings, softResetPart, restartTimebase, PerSource.get_map]
  have hr : (softResetPart s).clr.settings = s.clr.settings := by
    simp only [Router.settings, softResetPart, softRouter, restartChapters, PerSource.get_map]
  simp only [State.settings, ho, hl, hs, hc, hr]
  rfl

theorem clearCounters_settings (s : State) : (clearCounters s).settings = s.settings := by
  have ho : (fun x => ((clearCounters s).il.get x).openLimit) = fun x => (s.il.get x).openLimit := by funext x; cases x <;> rfl
  have hl : (fun l => ((clearCounters s).rl.get l).claimLimit) = fun l => (s.rl.get l).claimLimit := by funext l; cases l <;> rfl
  have hs : (fun l => ((clearCounters s).rl.get l).subs) = fun l => (s.rl.get l).subs := by funext l; cases l <;> rfl
  simp only [State.settings, ho, hl, hs]
  rfl

theorem replySetDetect_settings (p q : List Byte) (s : State) : SettingsChange (.setDetect q) s (replySetDetect p s).state := by
  unfold replySetDetect
  split
  · exact .same rfl
  · exact .detect ⟨q, rfl⟩ rfl

theorem replySetSchedule_settings (p q : List Byte) (s : State) : SettingsChange (.setSchedule q) s (replySetSchedule p s).state := by
  unfold replySetSchedule
  split
  · exact .same rfl
  · dsimp only
    split
    · exact .scheduled ⟨q, rfl⟩ rfl
    · exact .same rfl

theorem replySetRoute_settings (p q : List Byte) (s : State) : SettingsChange (.setRoute q) s (replySetRoute p s).state := by
  unfold replySetRoute
  split
  · exact .same rfl
  · exact .routed ⟨q, rfl⟩ rfl

theorem replySetCue_settings (p q : List Byte) (s : State) : SettingsChange (.setCue q) s (replySetCue p s).state := by
  unfold replySetCue
  split
  · exact .same rfl
  · exact .cued ⟨q, rfl⟩ rfl

theorem replySetCadence_settings (p q : List Byte) (s : State) : SettingsChange (.setCadence q) s (replySetCadence p s).state := by
  unfold replySetCadence
  split
  · exact .same rfl
  · exact .paced ⟨q, rfl⟩ rfl

theorem replySetChapters_settings (p q : List Byte) (s : State) : SettingsChange (.setChapters q) s (replySetChapters p s).state := by
  unfold replySetChapters
  split
  · exact .same rfl
  · exact .chaptered ⟨q, rfl⟩ rfl

theorem replyAttrWrite_settings (p q : List Byte) (s : State) : SettingsChange (.attrWrite q) s (replyAttrWrite p s).state := by
  unfold replyAttrWrite
  split
  · next x v _ _ =>
    exact .attrs ⟨q, rfl⟩ (foldl_keep (fun u : State => { u.settings with entries := s.attr.entries }) _
      (fun u i => congrArg (fun w : SettingsView => { w with entries := s.attr.entries }) (settings_writeAttr x v _ u)) _ s)
  · exact .same rfl

theorem replyAttrRead_settings (p : List Byte) (s : State) : (replyAttrRead p s).state = s := by
  unfold replyAttrRead
  split <;> rfl

theorem replyBadgeWrite_settings (p q : List Byte) (s : State) : SettingsChange (.badgeWrite q) s (replyBadgeWrite p s).state := by
  have hd := markBadges_keeps Detector.settings (fun _ _ _ => rfl) s s.cd
  refine .badge ⟨q, rfl⟩ ?_
  simp only [replyBadgeWrite, done]
  split
  · rfl
  · simp only [State.settings, hd]

theorem replyReadCounters_settings (p : List Byte) (s : State) : (replyReadCounters p s).state.settings = s.settings := by
  simp only [replyReadCounters, done]
  split
  · exact clearCounters_settings s
  · rfl

theorem replyLaneReset_settings (p q : List Byte) (s : State) : SettingsChange (.laneReset q) s (replyLaneReset p s).state := by
  unfold replyLaneReset
  split
  · exact .same rfl
  · exact resetLane_settings _ s (.inl ⟨q, rfl⟩)

theorem commandReply_settings (code : Byte) (p : List Byte) (s : State) :
    SettingsChange (commandOf code p) s (commandReply code p s).state := by
  unfold commandReply
  split
  · next h =>
    simp only [commandOf, h]
    exact SettingsChange.ofLength (replySetPlan_settings p p s)
  · next h =>
    simp only [commandOf, h]
    exact SettingsChange.ofLength (replySetDetect_settings p p s)
  · next h =>
    simp only [commandOf, h]
    exact SettingsChange.ofLength (replySetSchedule_settings p p s)
  · next h =>
    simp only [commandOf, h]
    exact SettingsChange.ofLength (replySetRoute_settings p p s)
  · next h =>
    simp only [commandOf, h]
    exact SettingsChange.ofLength (replySetCue_settings p p s)
  · next h =>
    simp only [commandOf, h]
    exact SettingsChange.ofLength (replySetCadence_settings p p s)
  · next h =>
    simp only [commandOf, h]
    exact SettingsChange.ofLength (replySetChapters_settings p p s)
  · next h =>
    simp only [commandOf, h]
    exact SettingsChange.ofLength (.limited ⟨p, rfl⟩ (replySetLaneLimits_settings p s))
  · next h =>
    simp only [commandOf, h]
    exact SettingsChange.ofLength (replyAttrWrite_settings p p s)
  · next h =>
    simp only [commandOf, h]
    exact SettingsChange.ofLength (.same (congrArg State.settings (replyAttrRead_settings p s)))
  · next h =>
    simp only [commandOf, h]
    exact SettingsChange.ofLength (replyBadgeWrite_settings p p s)
  · next h =>
    simp only [commandOf, h]
    exact SettingsChange.ofLength (.same rfl)
  · next h =>
    simp only [commandOf, h]
    exact SettingsChange.ofLength (.same (replyReadCounters_settings p s))
  · next h =>
    simp only [commandOf, h]
    exact SettingsChange.ofLength (.same rfl)
  · next h =>
    simp only [commandOf, h]
    exact SettingsChange.ofLength (.same rfl)
  · next h =>
    simp only [commandOf, h]
    exact SettingsChange.ofLength (.same rfl)
  · next h =>
    simp only [commandOf, h]
    exact SettingsChange.ofLength (.same rfl)
  · next h =>
    simp only [commandOf, h]
    exact SettingsChange.ofLength (.same (softResetPart_settings s))
  · next h =>
    simp only [commandOf, h]
    exact SettingsChange.ofLength (replyLaneReset_settings p p s)
  · exact .same rfl

end Sys2Proof.Machine
end

section
/-! O3: every command changes its own setting alone; and none but the end of an ingest burst writes the DRAM. -/

namespace Sys2Proof.Machine

open Sys2Proof Sys2Proof.Claims

/-! ### Commands that wait for RSTN -/

/-- A command that runs only while RSTN is high changes no setting, or what it changes while RSTN is high. -/
theorem running_settings {c : Instr} {s t : State} {f : State → Host.Outcome State Fault Refusal} (h : running s f = .next t)
    (hf : f s = .next t → SettingsChange c s t) : SettingsChange c s t := by
  rcases running_eq s f with ⟨-, e⟩ | ⟨-, e⟩
  · cases (e.symm.trans h)
    exact .same rfl
  · exact hf (e.symm.trans h)

theorem ingestRequest_settings {c : Instr} {want : ReqKind} {lane : Lane} {body : Src → Request → State → State} {s t : State}
    (h : ingestRequest want lane body s = .next t) (hb : ∀ x r, (body x r s).settings = s.settings) : SettingsChange c s t := by
  rcases ingestRequest_cases want lane body s with e | ⟨l, rfl, e⟩ | ⟨x, r, rfl, -, -, -, e⟩ <;> cases (e.symm.trans h)
  · exact .same rfl
  · exact .same (settings_answerHead ..)
  · exact .same (hb x r)

theorem renditionRequest_settings {c : Instr} {test : Request → Bool} {lane : Lane} {body : RLane → Request → State → State}
    {s t : State} (h : renditionRequest test lane body s = .next t)
    (hb : ∀ l r, lane = .rl l → SettingsChange c s (body l r s)) : SettingsChange c s t := by
  rcases renditionRequest_cases test lane body s with e | ⟨x, rfl, e⟩ | ⟨l, r, rfl, -, -, -, e⟩ <;> cases (e.symm.trans h)
  · exact .same rfl
  · exact .same (settings_answerHead ..)
  · exact hb l r rfl

/-! ### Management frames -/

theorem closeFrame_settings (staged : List Byte) (code : Byte) (p : List Byte) (m : Mlu) (s : State) :
    SettingsChange (commandOf code p) s (closeFrame staged (commandReply code p { s with mlu := m })) :=
  (commandReply_settings code p { s with mlu := m }).of_settings rfl rfl

theorem takeCommand_settings {code : Byte} {p : List Byte} {s t : State} (h : takeCommand code p s = .next t) :
    SettingsChange (commandOf code p) s t := by
  refine running_settings h fun h => ?_
  cases h
  exact closeFrame_settings _ code p { newFrame s.mlu with staging := code :: BitVec.ofNat 8 p.length :: p } s

theorem clockByte_settings {b : Byte} {s : State} (hr : s.rstnLow = false) :
    SettingsChange (performed (.managementFrameCutOff (.byte b)) s) s (clockByte b s) := by
  rcases clockByte_cases b s with ⟨-, e⟩ | ⟨-, -, e⟩ | ⟨hf, code, len, p, hs, hc, e⟩ | ⟨-, f, -, -, e⟩
  · rw [e]; exact .same rfl
  · rw [e]; exact .same rfl
  · have hp : performed (.managementFrameCutOff (.byte b)) s = commandOf code p := by
      simp only [performed, hr, hf, and_self, if_true, hs, frameCommand_eq hc, Option.getD_some]
    rw [hp, e]
    exact closeFrame_settings _ code p { s.mlu with staging := code :: len :: p } s
  · rw [e]; exact .same rfl

theorem execManagementFrameCutOff_settings {m : Sys2Proof.FrameMove} {s t : State} (h : execManagementFrameCutOff m s = .next t) :
    SettingsChange (performed (.managementFrameCutOff m) s) s t := by
  unfold execManagementFrameCutOff at h
  split at h <;> cases h
  · exact .same rfl
  · next hr =>
    cases m with
    | whole staged =>
      refine .same ?_
      simp only [moveFrame]
      split <;> rfl
    | fall => exact .same rfl
    | byte b => exact clockByte_settings (by simpa using hr)
    | rise => exact .same rfl

/-! ### Links and requests -/

theorem execRecordReceived_settings {lane : Lane} {bytes : List Byte} {s t : State} (h : execRecordReceived lane bytes s = .next t) :
    SettingsChange (.recordReceived lane bytes) s t := by
  refine running_settings h fun h => ?_
  split at h
  · split at h <;> cases h
    · exact .same (settings_queueRequest ..)
    · unfold countBadRecord
      dsimp only
      split
      · exact (resetLane_settings lane _ (.inr (.inr ⟨bytes, rfl⟩))).of_settings (settings_modLink ..).symm rfl
      · exact .same (settings_modLink ..)
  · cases h
    exact .same rfl

theorem execLinkTrainingComplete_settings {c : Instr} {lane : Lane} {s t : State} (h : execLinkTrainingComplete lane s = .next t) :
    SettingsChange c s t := by
  refine running_settings h fun h => ?_
  cases h
  exact .same (settings_modLink ..)

theorem execLinkLoss_settings {lane : Lane} {s t : State} (h : execLinkLoss lane s = .next t) : SettingsChange (.linkLoss lane) s t := by
  refine running_settings h fun h => ?_
  split at h <;> cases h
  · exact resetLane_settings lane s (.inr (.inl rfl))
  · exact .same rfl

theorem execMalformedRequest_settings {c : Instr} {lane : Lane} {s t : State} (h : execMalformedRequest lane s = .next t) :
    SettingsChange c s t := by
  refine running_settings h fun h => ?_
  split at h
  · cases h; exact .same rfl
  · split at h <;> cases h
    · exact .same (settings_answerHead ..)
    · exact .same rfl

theorem execOpenWaitDeadline_settings {c : Instr} {x : Src} {s t : State} (h : execOpenWaitDeadline x s = .next t) :
    SettingsChange c s t := by
  refine running_settings h fun h => ?_
  split at h
  · cases h; exact .same rfl
  · split at h <;> cases h
    · refine .same ?_
      rw [settings_answerHead, settings_modCounters, settings_modIl _ _ _ rfl]
      rfl
    · exact .same rfl

theorem execClaimWaitDeadline_settings {c : Instr} {l : RLane} {s t : State} (h : execClaimWaitDeadline l s = .next t) :
    SettingsChange c s t := by
  refine running_settings h fun h => ?_
  split at h
  · cases h; exact .same rfl
  · split at h <;> cases h
    · refine .same ?_
      rw [settings_answerHead, settings_modRl _ _ _ rfl rfl]
    · exact .same rfl

/-! ### Bursts -/

theorem execIngestBurstComplete_settings {s t : State} (h : execIngestBurstComplete s = .next t) :
    SettingsChange .ingestBurstComplete s t := by
  refine running_settings h fun h => ?_
  dsimp only at h
  split at h
  · split at h
    · next x a data _ =>
      split at h
      · cases h; exact .same rfl
      · split at h <;> cases h
        refine .written rfl ?_
        rw [settings_endBurst]
        split
        · rw [settings_finishRow]; rfl
        · rfl
    · cases h; exact .same rfl
  · cases h; exact .same rfl

theorem execDetectorRowBurstComplete_settings {c : Instr} {s t : State} (h : execDetectorRowBurstComplete s = .next t) :
    SettingsChange c s t := by
  refine running_settings h fun h => ?_
  split at h
  · split at h
    · split at h
      · cases h; exact .same rfl
      · split at h
        · split at h
          · cases h; exact .same (settings_endBurst s)
          · split at h <;> cases h
            exact .same ((settings_rowStep ..).trans (settings_endBurst s))
        · cases h; exact .same (settings_endBurst s)
    · cases h; exact .same rfl
  · cases h; exact .same rfl

theorem execBandBurstComplete_settings {c : Instr} {s t : State} (h : execBandBurstComplete s = .next t) : SettingsChange c s t := by
  refine running_settings h fun h => .same ?_
  dsimp only at h
  repeat' split at h
  all_goals cases h
  all_goals simp only [settings_endBurst, settings_bufferBand]
  all_goals rfl

theorem execTransmitRecord_settings {c : Instr} {lane : Lane} {part : SendPart} {s t : State}
    (h : execTransmitRecord lane part s = .next t) : SettingsChange c s t := by
  refine running_settings h fun h => .same ?_
  cases part with
  | start => cases h; exact settings_beginSend ..
  | finish => cases h; exact settings_endSend ..
  | whole =>
    dsimp only at h
    split at h <;> cases h
    · rfl
    · rw [settings_endSend, settings_beginSend]

theorem execRefreshComplete_settings {s t : State} (h : execRefreshComplete s = .next t) : SettingsChange .refreshComplete s t := by
  refine running_settings h fun h => ?_
  split at h
  · split at h <;> cases h
    · exact .refreshed rfl (by rw [settings_endBurst]; rfl)
    · exact .same rfl
  · cases h; exact .same rfl

/-! ### Time -/

theorem execPeriodEvent_settings {c : Instr} {s t : State} (h : execPeriodEvent s = .next t) : SettingsChange c s t := by
  refine running_settings h fun h => .same ?_
  obtain ⟨hs, hp⟩ := dramFree_settings { s.ms with refreshDue := true }
  have hidle : ∀ n : Stamp, ({ ({ s with tcu := { s.tcu with nextPeriod := n } } : State) with
      ms := dramFree { s.ms with refreshDue := true } } : State).settings = s.settings := fun n =>
    settings_ms { s with tcu := { s.tcu with nextPeriod := n } } hs hp
  dsimp only at h
  generalize later s.tcu.nextPeriod Config.periodMicros = n at h
  split at h
  · cases hd : s.ms.dram with
    | idle => simp only [hd] at h; cases h; exact hidle n
    | _ => simp only [hd] at h; cases h; rfl
  · cases h; rfl

theorem execCadenceExpiry_settings {c : Instr} {x : Src} {s t : State} (h : execCadenceExpiry x s = .next t) :
    SettingsChange c s t := by
  refine running_settings h fun h => ?_
  dsimp only at h
  split at h
  · cases h; exact .same rfl
  · split at h <;> cases h
    · refine .same ?_
      rw [settings_modCadence _ _ _ rfl rfl]
      split
      · exact settings_repeatFrame ..
      · rfl
    · exact .same rfl

theorem execCueEdge_settings {c : Instr} {e : CueEdge} {s t : State} (h : execCueEdge e s = .next t) : SettingsChange c s t := by
  refine running_settings h fun h => .same ?_
  dsimp only at h
  split at h <;> cases h
  · rw [settings_captureCue]; rfl
  · rfl

theorem execSpacingHoldEnd_settings {c : Instr} {s t : State} (h : execSpacingHoldEnd s = .next t) : SettingsChange c s t := by
  refine running_settings h fun h => .same ?_
  dsimp only at h
  split at h
  · cases h; rfl
  · split at h <;> cases h <;> rfl

theorem execCueAgeExpiry_settings {c : Instr} {s t : State} (h : execCueAgeExpiry s = .next t) : SettingsChange c s t := by
  refine running_settings h fun h => .same ?_
  dsimp only at h
  split at h <;> cases h <;> rfl

theorem endPulse_settings (now : Stamp) (m : MarkerLine) :
    (endPulse now m).enabled = m.enabled ∧ (endPulse now m).width = m.width := by
  unfold endPulse
  split
  · split <;> exact ⟨rfl, rfl⟩
  · exact ⟨rfl, rfl⟩

theorem execMarkerPulseEnd_settings {c : Instr} {pin : MarkerPin} {s t : State} (h : execMarkerPulseEnd pin s = .next t) :
    SettingsChange c s t := by
  refine running_settings h fun h => .same ?_
  cases h
  refine settings_clr s ?_
  cases pin <;> simp only [Router.settings, endPulse_settings]

theorem halted_settings {s t : State} (h : execRstnAsserted s = .next t) : t.settings = s.settings := by
  cases h
  simp only [State.settings, PerSource.get_map, PerRL.get_map]

/-! ### Every command -/

/-- Every command but the two start-up resets changes its own part of the settings alone. -/
theorem exec_settings {c : Instr} {s t : State} (h : exec c s = .next t) (hc : isStartUp c = false) :
    SettingsChange (performed c s) s t := by
  cases c with
  | powerOnReset | boardReset => cases hc
  | rstnAsserted => exact .same (halted_settings h)
  | setPlan p | setDetect p | setSchedule p | setRoute p | setCue p | setCadence p | setChapters p | setLaneLimits p
  | attrWrite p | attrRead p | badgeWrite p | readStatus p | readCounters p | popChapters p | readMarkers p
  | readResetCause p | clearResetCause p | softReset p | laneReset p => exact takeCommand_settings h
  | unknownCommand code p =>
    simp only [exec, execUnknownCommand] at h
    split at h
    · cases h; exact .same rfl
    · next hu =>
      have := takeCommand_settings h
      rwa [commandOf_unknown (by simpa using hu)] at this
  | managementFrameCutOff m => exact execManagementFrameCutOff_settings h
  | linkTrainingComplete lane => exact execLinkTrainingComplete_settings h
  | linkLoss lane => exact execLinkLoss_settings h
  | recordReceived lane bytes => exact execRecordReceived_settings h
  | malformedRequest lane => exact execMalformedRequest_settings h
  | openFrame lane => exact ingestRequest_settings h fun x r => settings_openBody ..
  | putRows lane => exact ingestRequest_settings h fun x r => settings_putBody ..
  | sealFrame lane => exact ingestRequest_settings h fun x r => settings_sealBody ..
  | abandonFrame lane => exact ingestRequest_settings h fun x r => settings_abandonBody ..
  | bind lane => exact renditionRequest_settings h fun l r _ => .same (settings_bindBody ..)
  | unbind lane => exact renditionRequest_settings h fun l r _ => .same (settings_unbindBody ..)
  | claimNext lane =>
    exact renditionRequest_settings h fun l r _ => .same (settings_claimChecked fun b => settings_nextBody ..)
  | claimLatest lane =>
    exact renditionRequest_settings h fun l r _ => .same (settings_claimChecked fun b => settings_latestBody ..)
  | claimNumber lane =>
    exact renditionRequest_settings h fun l r _ => .same (settings_claimChecked fun b => settings_numberBody ..)
  | release lane => exact renditionRequest_settings h fun l r _ => .same (settings_releaseBody ..)
  | fetch lane => exact renditionRequest_settings h fun l r _ => .same (settings_fetchBody ..)
  | fetchMaskFrame lane => exact renditionRequest_settings h fun l r _ => .same (settings_maskChecked ..)
  | fetchMaskSince lane => exact renditionRequest_settings h fun l r _ => .same (settings_maskChecked ..)
  | subscribe lane =>
    refine renditionRequest_settings h fun l r hl => ?_
    subst hl
    exact .subscribed l rfl _ (settings_subscribeBody ..)
  | openWaitDeadline x => exact execOpenWaitDeadline_settings h
  | claimWaitDeadline l => exact execClaimWaitDeadline_settings h
  | ingestBurstComplete => exact execIngestBurstComplete_settings h
  | detectorRowBurstComplete => exact execDetectorRowBurstComplete_settings h
  | bandBurstComplete => exact execBandBurstComplete_settings h
  | transmitRecord lane part => exact execTransmitRecord_settings h
  | periodEvent => exact execPeriodEvent_settings h
  | refreshComplete => exact execRefreshComplete_settings h
  | cadenceExpiry x => exact execCadenceExpiry_settings h
  | cueEdge e => exact execCueEdge_settings h
  | spacingHoldEnd => exact execSpacingHoldEnd_settings h
  | cueAgeExpiry => exact execCueAgeExpiry_settings h
  | markerPulseEnd pin => exact execMarkerPulseEnd_settings h

end Sys2Proof.Machine
end

section
/-! O3: each setting with the commands that own it. -/

namespace Sys2Proof.Machine

open Sys2Proof Sys2Proof.Claims

/-! ### Each setting with its owner -/

theorem SettingsChange.mem_kept {c : Instr} {s t : State} (h : SettingsChange c s t) :
    c = .ingestBurstComplete ∨ t.mem = s.mem := by
  cases h with
  | written hc h => exact .inl hc
  | same h | planned hc h | attrs hc h | badge hc h | detect hc h | refreshed hc h | scheduled hc h | cued hc h
  | paced hc h | routed hc h | chaptered hc h | limited hc h | subscribed l hc m h | laneReset l hc h =>
    exact .inr (congrArg SettingsView.mem h)

theorem SettingsChange.plan_kept {c : Instr} {s t : State} (h : SettingsChange c s t) :
    (∃ p, c = .setPlan p) ∨ t.fpc.plan = s.fpc.plan := by
  cases h with
  | planned hc h => exact .inl hc
  | same h | written hc h | attrs hc h | badge hc h | detect hc h | refreshed hc h | scheduled hc h | cued hc h
  | paced hc h | routed hc h | chaptered hc h | limited hc h | subscribed l hc m h | laneReset l hc h =>
    exact .inr (congrArg SettingsView.plan h)

theorem SettingsChange.entries_kept {c : Instr} {s t : State} (h : SettingsChange c s t) :
    (∃ p, c = .attrWrite p) ∨ t.attr.entries = s.attr.entries := by
  cases h with
  | attrs hc h => exact .inl hc
  | same h | written hc h | planned hc h | badge hc h | detect hc h | refreshed hc h | scheduled hc h | cued hc h
  | paced hc h | routed hc h | chaptered hc h | limited hc h | subscribed l hc m h | laneReset l hc h =>
    exact .inr (congrArg SettingsView.entries h)

theorem SettingsChange.stencil_kept {c : Instr} {s t : State} (h : SettingsChange c s t) :
    (∃ p, c = .badgeWrite p) ∨ t.attr.stencil = s.attr.stencil := by
  cases h with
  | badge hc h => exact .inl hc
  | same h | written hc h | planned hc h | attrs hc h | detect hc h | refreshed hc h | scheduled hc h | cued hc h
  | paced hc h | routed hc h | chaptered hc h | limited hc h | subscribed l hc m h | laneReset l hc h =>
    exact .inr (congrArg SettingsView.stencil h)

theorem SettingsChange.detect_kept {c : Instr} {s t : State} (h : SettingsChange c s t) :
    (∃ p, c = .setDetect p) ∨ t.cd.settings = s.cd.settings := by
  cases h with
  | detect hc h => exact .inl hc
  | same h | written hc h | planned hc h | attrs hc h | badge hc h | refreshed hc h | scheduled hc h | cued hc h
  | paced hc h | routed hc h | chaptered hc h | limited hc h | subscribed l hc m h | laneReset l hc h =>
    exact .inr (congrArg SettingsView.detect h)

theorem SettingsChange.schedule_kept {c : Instr} {s t : State} (h : SettingsChange c s t) :
    c = .refreshComplete ∨ t.ms.schedule = s.ms.schedule := by
  cases h with
  | refreshed hc h => exact .inl hc
  | same h | written hc h | planned hc h | attrs hc h | badge hc h | detect hc h | scheduled hc h | cued hc h
  | paced hc h | routed hc h | chaptered hc h | limited hc h | subscribed l hc m h | laneReset l hc h =>
    exact .inr (congrArg SettingsView.schedule h)

theorem SettingsChange.pendingSchedule_kept {c : Instr} {s t : State} (h : SettingsChange c s t) :
    c = .refreshComplete ∨ (∃ p, c = .setSchedule p) ∨ t.ms.pendingSchedule = s.ms.pendingSchedule := by
  cases h with
  | refreshed hc h => exact .inl hc
  | scheduled hc h => exact .inr (.inl hc)
  | same h | written hc h | planned hc h | attrs hc h | badge hc h | detect hc h | cued hc h | paced hc h
  | routed hc h | chaptered hc h | limited hc h | subscribed l hc m h | laneReset l hc h =>
    exact .inr (.inr (congrArg SettingsView.pendingSchedule h))

theorem SettingsChange.cue_kept {c : Instr} {s t : State} (h : SettingsChange c s t) :
    (∃ p, c = .setCue p) ∨ t.tcu.cueSettings = s.tcu.cueSettings := by
  cases h with
  | cued hc h => exact .inl hc
  | same h | written hc h | planned hc h | attrs hc h | badge hc h | detect hc h | refreshed hc h | scheduled hc h
  | paced hc h | routed hc h | chaptered hc h | limited hc h | subscribed l hc m h | laneReset l hc h =>
    exact .inr (congrArg (fun v => v.time.cue) h)

theorem SettingsChange.cadence_kept {c : Instr} {s t : State} (h : SettingsChange c s t) :
    (∃ p, c = .setCadence p) ∨ t.tcu.settings.cadence = s.tcu.settings.cadence := by
  cases h with
  | paced hc h => exact .inl hc
  | same h | written hc h | planned hc h | attrs hc h | badge hc h | detect hc h | refreshed hc h | scheduled hc h
  | cued hc h | routed hc h | chaptered hc h | limited hc h | subscribed l hc m h | laneReset l hc h =>
    exact .inr (congrArg (fun v => v.time.cadence) h)

theorem SettingsChange.route_kept {c : Instr} {s t : State} (h : SettingsChange c s t) :
    (∃ p, c = .setRoute p) ∨ { t.clr.settings with chapters := s.clr.settings.chapters } = s.clr.settings := by
  cases h with
  | routed hc h => exact .inl hc
  | same h | written hc h | planned hc h | attrs hc h | badge hc h | detect hc h | refreshed hc h | scheduled hc h
  | cued hc h | paced hc h | chaptered hc h | limited hc h | subscribed l hc m h | laneReset l hc h =>
    exact .inr (congrArg (fun v => { v.router with chapters := s.clr.settings.chapters }) h)

theorem SettingsChange.chapters_kept {c : Instr} {s t : State} (h : SettingsChange c s t) :
    (∃ p, c = .setChapters p) ∨ t.clr.settings.chapters = s.clr.settings.chapters := by
  cases h with
  | chaptered hc h => exact .inl hc
  | same h | written hc h | planned hc h | attrs hc h | badge hc h | detect hc h | refreshed hc h | scheduled hc h
  | cued hc h | paced hc h | routed hc h | limited hc h | subscribed l hc m h | laneReset l hc h =>
    exact .inr (congrArg (fun v => v.router.chapters) h)

theorem SettingsChange.limits_kept {c : Instr} {s t : State} (h : SettingsChange c s t) :
    (∃ p, c = .setLaneLimits p) ∨ t.settings.limits = s.settings.limits := by
  cases h with
  | limited hc h => exact .inl hc
  | same h | written hc h | planned hc h | attrs hc h | badge hc h | detect hc h | refreshed hc h | scheduled hc h
  | cued hc h | paced hc h | routed hc h | chaptered hc h | subscribed l hc m h | laneReset l hc h =>
    exact .inr (congrArg SettingsView.limits h :)

/-- A lane's subscription is kept, set by its SUBSCRIBE, or cleared by what may reset the lane. -/
theorem SettingsChange.subs_kept {c : Instr} {s t : State} (h : SettingsChange c s t) (l : RLane) :
    (t.rl.get l).subs = (s.rl.get l).subs ∨ c = .subscribe (.rl l) ∨
      ((t.rl.get l).subs = 0 ∧ ((∃ p, c = .laneReset p) ∨ c = .linkLoss (.rl l) ∨ ∃ b, c = .recordReceived (.rl l) b)) := by
  cases h with
  | subscribed j hc m h =>
    rcases eq_or_ne l j with rfl | hj
    · exact .inr (.inl hc)
    · exact .inl ((congrArg (fun v => v.subs l) h).trans (Function.update_of_ne hj ..))
  | laneReset j hc h =>
    rcases eq_or_ne l j with rfl | hj
    · exact .inr (.inr ⟨(congrArg (fun v => v.subs l) h).trans (Function.update_self ..), hc⟩)
    · exact .inl ((congrArg (fun v => v.subs l) h).trans (Function.update_of_ne hj ..))
  | same h | written hc h | planned hc h | attrs hc h | badge hc h | detect hc h | refreshed hc h | scheduled hc h | cued hc h
  | paced hc h | routed hc h | chaptered hc h | limited hc h =>
    exact .inl (congrArg (fun v => v.subs l) h)

/-! ### What a management frame performs -/

/-- A command of the management bus. -/
def isManagement : Instr → Bool
  | .setPlan _ | .setDetect _ | .setSchedule _ | .setRoute _ | .setCue _ | .setCadence _ | .setChapters _ | .setLaneLimits _
  | .attrWrite _ | .attrRead _ | .badgeWrite _ | .readStatus _ | .readCounters _ | .popChapters _ | .readMarkers _
  | .readResetCause _ | .clearResetCause _ | .softReset _ | .laneReset _ | .unknownCommand _ _ => true
  | _ => false

theorem isManagement_commandOf (code : Byte) (p : List Byte) : isManagement (commandOf code p) = true := by
  unfold commandOf
  split <;> rfl

theorem isManagement_of_frameCommand {staged : List Byte} {c : Instr} (h : frameCommand staged = some c) : isManagement c = true := by
  match staged with
  | [] | [_] => cases h
  | code :: len :: p =>
    cases hf : frameComplete (code :: len :: p) with
    | false => simp [frameCommand, hf] at h
    | true =>
      rw [frameCommand_eq hf] at h
      cases h
      exact isManagement_commandOf code p

/-- A frame performs a command of the management bus, and every other command performs itself. -/
theorem performed_eq {c d : Instr} {s : State} (h : performed c s = d) (hd : isManagement d = false) : c = d := by
  unfold performed at h
  split at h
  · next b =>
    split at h
    · cases hf : frameCommand (s.mlu.staging ++ [b]) with
      | none => rwa [hf] at h
      | some e =>
        rw [hf, Option.getD_some] at h
        rw [← h, isManagement_of_frameCommand hf] at hd
        cases hd
    · exact h
  · exact h

/-- Settles O3: what a command changes of the settings is its own part alone (`SettingsChange`), so each setting is kept or the command is
its owner. -/
theorem settingsChangeByTheirOwners : Obligations.SettingsChangeByTheirOwners := by
  intro c s t h hc
  have m : SettingsChange (performed c s) s t := exec_settings h hc
  refine ⟨?_, ?_, ?_, ?_, ?_, ?_, ?_, ?_, ?_, ?_, ?_, fun l => ?_⟩
  · rcases m.plan_kept with ⟨p, e⟩ | h
    · simp only [e]
    · split <;> trivial
  · rcases m.entries_kept with ⟨p, e⟩ | h
    · simp only [e]
    · split <;> trivial
  · rcases m.stencil_kept with ⟨p, e⟩ | h
    · simp only [e]
    · split <;> trivial
  · rcases m.detect_kept with ⟨p, e⟩ | h
    · simp only [e]
    · split <;> trivial
  · rcases m.schedule_kept with e | h
    · simp only [e]
    · split <;> trivial
  · rcases m.pendingSchedule_kept with e | ⟨p, e⟩ | h
    · simp only [e]
    · simp only [e]
    · split <;> trivial
  · rcases m.cue_kept with ⟨p, e⟩ | h
    · simp only [e]
    · split <;> trivial
  · rcases m.route_kept with ⟨p, e⟩ | h
    · simp only [e]
    · obtain ⟨hg, hm, h0, h1, -⟩ := RouterSettings.mk.inj h
      obtain ⟨he0, hw0⟩ := Prod.mk.inj h0
      obtain ⟨he1, hw1⟩ := Prod.mk.inj h1
      split
      · trivial
      · exact ⟨hg, hm, he0, hw0, he1, hw1⟩
  · rcases m.limits_kept with ⟨p, e⟩ | h
    · simp only [e]
    · obtain ⟨hp, ho, hl⟩ := LimitSettings.mk.inj h
      split
      · trivial
      · exact ⟨hp, congrFun ho, congrFun hl⟩
  · rcases m.cadence_kept with ⟨p, e⟩ | h
    · simp only [e]
    · split
      · trivial
      · exact fun x => Prod.mk.inj (congrFun h x)
  · rcases m.chapters_kept with ⟨p, e⟩ | h
    · simp only [e]
    · split
      · trivial
      · exact fun x => Prod.mk.inj (congrFun h x)
  · rcases m.subs_kept l with h | h | ⟨h, hp | hp | ⟨b, hp⟩⟩
    · exact .inl h
    · exact .inr (.inl (performed_eq h rfl))
    · exact .inr (.inr ⟨h, .inl hp⟩)
    · exact .inr (.inr ⟨h, .inr (.inl (performed_eq hp rfl))⟩)
    · exact .inr (.inr ⟨h, .inr (.inr ⟨b, performed_eq hp rfl⟩)⟩)

end Sys2Proof.Machine
end

section
/-! O59: a hold keeps its frame, and no command writes the samples of a sealed frame. -/

namespace Sys2Proof.Machine

open Sys2Proof Sys2Proof.Claims

/-! ### The places of the slots in the DRAM -/

theorem readByte_writeBytes_outside {m : List Host.Cell} {a x : Nat} {bs : List Byte} (h : x < a ∨ a + bs.length ≤ x) :
    readByte (writeBytes m a bs) x = readByte m x := by
  rw [readByte_writeBytes, if_neg (by omega)]

/-- A picture of an enabled source fits a slot. -/
theorem picture_le_slotSize {p : Plan} {x : Src} (h : (p.source.get x).enabled = true) :
    (p.source.get x).cols * (p.source.get x).rows * Config.tileBytes ≤ slotSize p := by
  unfold slotSize
  cases x with
  | s0 => exact le_max_of_le_left (by simp [show p.source.s0.enabled = true from h, PerSource.get])
  | s1 => exact le_max_of_le_right (by simp [show p.source.s1.enabled = true from h, PerSource.get])

/-- A tile row below the last lies within its slot. -/
theorem row_within_slot {k r cols rows row size : Nat} (hs : cols * rows * row ≤ size) (hr : r < rows) :
    k * size ≤ k * size + r * (cols * row) ∧ k * size + r * (cols * row) + cols * row ≤ (k + 1) * size := by
  have hrow : r * (cols * row) + cols * row ≤ size :=
    calc r * (cols * row) + cols * row = (r + 1) * (cols * row) := by rw [Nat.add_mul, Nat.one_mul]
      _ ≤ rows * (cols * row) := Nat.mul_le_mul_right _ hr
      _ = cols * rows * row := by rw [← Nat.mul_assoc, Nat.mul_comm rows]
      _ ≤ size := hs
  rw [Nat.add_mul, Nat.one_mul]
  omega

/-- Different slots lie in different places. -/
theorem slot_places_disjoint {j k a b size : Nat} (hjk : j ≠ k) (ha : j * size ≤ a ∧ b ≤ (j + 1) * size) :
    b ≤ k * size ∨ (k + 1) * size ≤ a := by
  rcases Nat.lt_or_gt_of_ne hjk with h | h
  · exact .inl (ha.2.trans (Nat.mul_le_mul_right _ h))
  · exact .inr ((Nat.mul_le_mul_right _ h).trans ha.1)

theorem enabled_of_used {s : State} {p : Plan} (hp : PlanLaw s) (hq : QuotaLaw s) (hpl : s.fpc.plan = some p) {k : Nat} {c : Slot}
    {x : Src} (hk : s.fpc.slots[k]? = some c) (hx : slotSource c = some x) : (p.source.get x).enabled = true := by
  have hocc : 0 < s.occupancy x := List.countP_pos_iff.mpr ⟨c, List.mem_of_getElem? hk, by simp [hx]⟩
  have hquota : s.occupancy x ≤ (p.source.get x).quota := by simpa [State.quota, State.sourcePlan, hpl] using hq x
  obtain ⟨-, -, -, hs⟩ := hp.2 p hpl
  by_contra he
  have := (hs x).2 (by simpa using he)
  omega

/-! ### What the end of an ingest burst writes -/

theorem execIngestBurstComplete_mem {s t : State} (h : execIngestBurstComplete s = .next t) :
    t.mem = s.mem ∨ ∃ b x a data, s.ms.dram = .burst b ∧ b.job = .ingest x a data ∧ t.mem = writeBytes s.mem a data := by
  have mem_endBurst : ∀ u : State, (endBurst u).mem = u.mem := fun u => congrArg SettingsView.mem (settings_endBurst u)
  have mem_finishRow : ∀ (x : Src) (u : State), (finishRow x u).mem = u.mem := fun x u =>
    congrArg SettingsView.mem (settings_finishRow x u)
  rcases running_eq s _ with ⟨-, e⟩ | ⟨-, e⟩
  · cases (e.symm.trans h)
    exact .inl rfl
  · have h := e.symm.trans h
    dsimp only at h
    split at h
    · next b hb =>
      split at h
      · next x a data hj =>
        split at h
        · cases h; exact .inl rfl
        · split at h <;> cases h
          refine .inr ⟨b, x, a, data, hb, hj, ?_⟩
          rw [mem_endBurst]
          split
          · rw [mem_finishRow]
          · rfl
      · cases h; exact .inl rfl
    · cases h; exact .inl rfl

/-- A live ingest burst writes the place of a row of a FILLING slot. -/
theorem live_burst_place {s : State} {p : Plan} {b : Burst} {x : Src} {a : Nat} {data : List Byte} (hp : PlanLaw s) (hq : QuotaLaw s)
    (hr : RowLaw s x) (hpl : s.fpc.plan = some p) (hd : s.ms.dram = .burst b) (hj : b.job = .ingest x a data)
    (hl : b.live = true) :
    ∃ j y n, s.fpc.slots[j]? = some (.filling x y n) ∧ j * slotSize p ≤ a ∧ a + data.length ≤ (j + 1) * slotSize p := by
  have carried : Carries s (.ingest x a data) := ⟨b, hd, hl, hj⟩
  cases hrow : (s.il.get x).rowBuffer with
  | none =>
    rw [RowLaw, hrow] at hr
    exact absurd carried (hr.2 a data)
  | some row =>
    rw [RowLaw, hrow] at hr
    obtain ⟨j, y, -, hslot, hn, hlen, ⟨-, hno⟩ | ⟨-, b', hd', -, hj'⟩⟩ := hr
    · exact absurd carried (hno a data)
    · cases hd'.symm.trans hd
      obtain ⟨-, ha, hdata⟩ := Job.ingest.inj (hj.symm.trans hj')
      have hc : s.cols x = (p.source.get x).cols := by simp [State.cols, State.sourcePlan, hpl]
      have hrows : s.rows x = (p.source.get x).rows := by simp [State.rows, State.sourcePlan, hpl]
      have hfit := picture_le_slotSize (enabled_of_used hp hq hpl hslot rfl)
      rw [← hc, ← hrows] at hfit
      have hin := row_within_slot (k := j) hfit hn
      have hplace : a = j * slotSize p + row.row * (s.cols x * Config.tileBytes) := by
        rw [ha, State.rowPlace, hpl]
        rfl
      have hlen' : data.length = s.cols x * Config.tileBytes := by rw [hdata, hlen]; rfl
      rw [hplace, hlen']
      exact ⟨j, y, row.row, hslot, hin.1, hin.2⟩

/-- No command writes a byte of the place of a slot whose frame has been sealed. -/
theorem exec_keeps_sealed_bytes {c : Instr} {s t : State} {p : Plan} {k i : Nat} {d : Slot} (hs : SafeState s)
    (ht : exec c s = .next t) (hpl : s.fpc.plan = some p) (hk : s.fpc.slots[k]? = some d) (hd : (slotFrame d).isSome = true)
    (hlo : k * slotSize p ≤ i) (hhi : i < (k + 1) * slotSize p) : readByte t.mem i = readByte s.mem i := by
  obtain ⟨-, -, hq, -, -, -, -, -, -, hplan, -, -, -, -, ⟨hdram, -, hrow, -⟩, -⟩ := hs
  have kept : t.mem = s.mem ∨ ∃ b x a data, s.ms.dram = .burst b ∧ b.job = .ingest x a data ∧ t.mem = writeBytes s.mem a data := by
    cases hst : isStartUp c with
    | true =>
      refine .inl ?_
      cases c with
      | powerOnReset | boardReset => cases ht; rfl
      | _ => cases hst
    | false =>
      rcases (exec_settings ht hst).mem_kept with e | e
      · cases performed_eq e rfl
        exact execIngestBurstComplete_mem ht
      · exact .inl e
  rcases kept with e | ⟨b, x, a, data, hb, hj, e⟩
  · rw [e]
  · rw [e]
    refine readByte_writeBytes_outside ?_
    cases hl : b.live with
    | true =>
      obtain ⟨j, y, n, hslot, hplace⟩ := live_burst_place hplan hq (hrow x) hpl hb hj hl
      have hjk : j ≠ k := by
        rintro rfl
        cases hslot.symm.trans hk
        cases hd
      rcases slot_places_disjoint hjk hplace with h | h <;> omega
    | false =>
      obtain ⟨-, -, -, -, -, hlast⟩ := hdram
      by_contra hin
      rcases (hlast b x a data hb hj).2 hl p k i d hpl hk hlo hhi (by omega) (by omega) with rfl | ⟨y, q, rfl⟩
      · cases hd
      · cases hd

/-- Settles O59: `exec_shown` keeps the frame under hold, and the only write of the DRAM, the end of an ingest burst, goes to slots that
have no sealed frame. -/
theorem holdKeepsTheFrame : Obligations.HoldKeepsTheFrame := by
  refine ⟨fun c s t k cur f v h o hl ht hk => ?_, fun c s t p k a d hs ht hp hk hd hlo hhi =>
    exec_keeps_sealed_bytes hs ht hp hk hd hlo hhi⟩
  have kept : Releases (performed c s) = false → ∃ cur' h' o', t.fpc.slots[k]? = some (.analysed cur' f v h' o') ∧ h + 1 ≤ h' := by
    intro hr
    obtain ⟨cur', h', o', hk', hh⟩ := exec_shown hr hl ht ⟨cur, h + 1, o, slot_of_getElem? hk, Nat.le_refl _⟩
    exact ⟨cur', h', o', getElem?_of_slot hk' (by simp), hh⟩
  cases hc : performed c s with
  | powerOnReset | boardReset | softReset | laneReset | linkLoss | recordReceived | release => trivial
  | _ => exact kept (by rw [hc]; rfl)

end Sys2Proof.Machine
end

section
/-! O8, O9, O10: the service of the slot wait list, the free check, and the choice that serves an open. -/

namespace Sys2Proof.Machine

open Sys2Proof Sys2Proof.Claims

/-! ### The slot wait list -/

theorem serveOpen_waitList (x : Src) (p : Pts) (c : OpenChoice) (s : State) :
    (serveOpen x p c s).fpc.waitList = s.fpc.waitList :=
  congrArg PoolView.waitList ((pool_serveOpen x p c s).trans (pool_fillSlot x p c.slot s))

/-- The first entry that can be served is served. -/
theorem serveWaitOnce_of_first {s : State} {before after : List WaitEntry} {e : WaitEntry} {c : OpenChoice}
    (hw : s.fpc.waitList = before ++ e :: after) (hb : ∀ d, d ∈ before → openChoice d.source s = none)
    (hc : openChoice e.source s = some c) : serveWaitOnce s = some (serveOpen e.source e.pts c (unlist e.source s)) := by
  have hf : s.fpc.waitList.find? (fun e => (openChoice e.source s).isSome) = some e :=
    List.find?_eq_some_iff_append.mpr ⟨by simp [hc], before, after, hw, fun d hd => by simp [hb d hd]⟩
  simp only [serveWaitOnce, hf, hc]
  rfl

/-- A service shortens the list. -/
theorem serveWaitOnce_length {s t : State} (h : serveWaitOnce s = some t) : t.fpc.waitList.length < s.fpc.waitList.length := by
  obtain ⟨e, c, he, -, rfl⟩ := serveWaitOnce_eq_some h
  rw [serveOpen_waitList]
  exact List.length_filter_lt_length_iff_exists.mpr ⟨e, List.mem_of_find?_eq_some he, by simp⟩

theorem serveWait_of_none {s : State} (h : serveWaitOnce s = none) (n : Nat) : serveWait n s = s := by
  cases n with
  | zero => rfl
  | succ n => simp only [serveWait, h]

/-- Going through the list as often as it is long is enough. -/
theorem serveWait_of_length_le {n m : Nat} {s : State} (hn : s.fpc.waitList.length ≤ n) (hm : s.fpc.waitList.length ≤ m) :
    serveWait n s = serveWait m s := by
  induction n generalizing m s with
  | zero =>
    have hnone : serveWaitOnce s = none := serveWaitOnce_eq_none.mpr fun e he => by
      rw [List.length_eq_zero_iff.mp (Nat.le_zero.mp hn)] at he
      cases he
    rw [serveWait_of_none hnone, serveWait_of_none hnone]
  | succ n ih =>
    cases h : serveWaitOnce s with
    | none => rw [serveWait_of_none h, serveWait_of_none h]
    | some t =>
      have hlt := serveWaitOnce_length h
      cases m with
      | zero => omega
      | succ m =>
        simp only [serveWait, h]
        exact ih (by omega) (by omega)

theorem serveWaitList_of_none {s : State} (h : serveWaitOnce s = none) : serveWaitList s = s := serveWait_of_none h _

theorem serveWaitList_of_some {s t : State} (h : serveWaitOnce s = some t) : serveWaitList s = serveWaitList t := by
  have hlt := serveWaitOnce_length h
  have hstep : serveWait (s.fpc.waitList.length + 1) s = serveWait s.fpc.waitList.length t := by simp only [serveWait, h]
  calc serveWaitList s = serveWait (s.fpc.waitList.length + 1) s := serveWait_of_length_le (Nat.le_refl _) (Nat.le_succ _)
    _ = serveWait s.fpc.waitList.length t := hstep
    _ = serveWaitList t := serveWait_of_length_le (Nat.le_of_lt hlt) (Nat.le_refl _)

/-- After the service nothing more can be served. -/
theorem serveWaitOnce_serveWaitList (s : State) : serveWaitOnce (serveWaitList s) = none := by
  cases h : serveWaitOnce s with
  | none => rw [serveWaitList_of_none h, h]
  | some t =>
    rw [serveWaitList_of_some h]
    exact serveWaitOnce_serveWaitList t
termination_by s.fpc.waitList.length
decreasing_by exact serveWaitOnce_length h

/-- With no open waiting there is nothing to serve. -/
theorem serveWaitList_of_nil {s : State} (h : s.fpc.waitList = []) : serveWaitList s = s :=
  serveWaitList_of_none (serveWaitOnce_eq_none.mpr fun e he => by rw [h] at he; cases he)

/-- Settles O8: one service is of the first entry that can be served, and services go on until there is none. -/
theorem waitListServiceOrder : Obligations.WaitListServiceOrder :=
  ⟨fun _ h => serveWaitList_of_none (serveWaitOnce_eq_none.mpr h),
    fun _ _ _ _ _ hw hb hc => serveWaitList_of_some (serveWaitOnce_of_first hw hb hc),
    fun s => serveWaitOnce_eq_none.mp (serveWaitOnce_serveWaitList s)⟩

/-! ### The free check -/

/-- A STALE slot that nothing holds and some lane is owed (R20). -/
theorem wasCandidate_eq_true {c : Slot} :
    wasCandidate c = true ↔ ∃ f v o, c = .analysed false f v 0 o ∧ ∃ l : RLane, o.get l = true := by
  rw [wasCandidate, Bool.or_eq_true, isCandidate_eq_true, isCandidate_eq_true]
  constructor
  · rintro (⟨f, v, o, rfl, -, ho⟩ | ⟨f, v, o, rfl, -, ho⟩)
    · exact ⟨f, v, o, rfl, laneSetEmpty_eq_false.mp ho⟩
    · exact ⟨f, v, o, rfl, laneSetEmpty_eq_false.mp ho⟩
  · rintro ⟨f, v, o, rfl, ho⟩
    cases hx : f.source with
    | s0 => exact .inl ⟨f, v, o, rfl, hx, laneSetEmpty_eq_false.mpr ho⟩
    | s1 => exact .inr ⟨f, v, o, rfl, hx, laneSetEmpty_eq_false.mpr ho⟩

theorem laneSetEmpty_eq_true {o : PerRL Bool} : laneSetEmpty o = true ↔ ¬ ∃ l : RLane, o.get l = true := by
  rw [← laneSetEmpty_eq_false, Bool.not_eq_false]

theorem examineSlot_unwanted {was : Slot} {k : Nat} {s : State} {f : SealedFrame} {v : Verdict} {o : PerRL Bool}
    (hk : s.slot k = .analysed false f v 0 o) (ho : laneSetEmpty o = true) :
    examineSlot was k s = serveWaitList (s.setSlot k .free) := by
  simp only [examineSlot, hk, ho, if_true]

theorem examineSlot_candidate {was : Slot} {k : Nat} {s : State} (hk : wasCandidate (s.slot k) = true) :
    examineSlot was k s = if wasCandidate was then s else serveWaitList s := by
  obtain ⟨f, v, o, e, ho⟩ := wasCandidate_eq_true.mp hk
  simp only [examineSlot, e, laneSetEmpty_eq_false.mpr ho, Bool.false_eq_true, if_false]

theorem examineSlot_other {was : Slot} {k : Nat} {s : State} (hk : ∀ f v o, s.slot k ≠ .analysed false f v 0 o) :
    examineSlot was k s = s := by
  unfold examineSlot
  split
  · next f v o e => exact absurd e (hk f v o)
  · rfl

/-- A slot after an event's free checks when no open waits, `was` being the slot before the event. -/
def freeChecked (was c : Slot) : Slot :=
  if slotHolds was = slotHolds c ∧ slotOwed was = slotOwed c then c
  else match c with
    | .analysed false _ _ 0 owed => if owed.r0 = false ∧ owed.r1 = false ∧ owed.r2 = false ∧ owed.r3 = false then .free else c
    | c => c

theorem touched_iff {a b : Slot} : touched a b = true ↔ ¬ (slotHolds a = slotHolds b ∧ slotOwed a = slotOwed b) := by
  simp only [touched, Bool.or_eq_true, decide_eq_true_eq]
  tauto

theorem laneSetEmpty_iff {o : PerRL Bool} :
    laneSetEmpty o = true ↔ o.r0 = false ∧ o.r1 = false ∧ o.r2 = false ∧ o.r3 = false := by
  simp [laneSetEmpty, and_assoc]

theorem freeChecked_untouched {was c : Slot} (h : touched was c = false) : freeChecked was c = c := by
  unfold freeChecked
  rw [if_pos (by_contra fun e => by rw [touched_iff.mpr e] at h; cases h)]

theorem freeChecked_unwanted {was : Slot} {f : SealedFrame} {v : Verdict} {o : PerRL Bool}
    (h : touched was (.analysed false f v 0 o) = true) (ho : laneSetEmpty o = true) :
    freeChecked was (.analysed false f v 0 o) = .free := by
  unfold freeChecked
  rw [if_neg (touched_iff.mp h)]
  simp only [laneSetEmpty_iff.mp ho, and_self, if_true]

theorem freeChecked_wanted {was : Slot} {c : Slot} (h : ∀ f v o, c = .analysed false f v 0 o → laneSetEmpty o = false) :
    freeChecked was c = c := by
  unfold freeChecked
  split
  · rfl
  · split
    · next f v o _ =>
      have ho := h f v o rfl
      rw [if_neg fun e => by rw [laneSetEmpty_iff.mpr e] at ho; cases ho]
    · rfl

/-- One free check with no open waiting sets the slot to what is left of it. -/
theorem examineTouched_of_no_wait {before : List Slot} {s t : State} {k : Nat} (hw : t.fpc.waitList = []) (hk : t.slot k = s.slot k) :
    examineTouched before s t k = t.setSlot k (freeChecked (before.getD k .free) (s.slot k)) := by
  have set_self : t.setSlot k (s.slot k) = t := by
    rw [← hk, State.setSlot, State.slot]
    have : t.fpc.slots.set k (t.fpc.slots.getD k .free) = t.fpc.slots := by
      by_cases hl : k < t.fpc.slots.length
      · rw [List.getD_eq_getElem _ _ hl, List.set_getElem_self]
      · exact List.set_eq_of_length_le (by omega)
    rw [this]
  unfold examineTouched
  cases ht : touched (before.getD k .free) (s.slot k) with
  | false =>
    rw [freeChecked_untouched ht, set_self]
    rfl
  | true =>
    rw [if_pos rfl]
    by_cases hu : ∃ f v o, s.slot k = .analysed false f v 0 o ∧ laneSetEmpty o = true
    · obtain ⟨f, v, o, e, ho⟩ := hu
      rw [e] at ht hk ⊢
      rw [examineSlot_unwanted hk ho, freeChecked_unwanted ht ho]
      exact serveWaitList_of_nil hw
    · have hwanted : ∀ f v o, s.slot k = .analysed false f v 0 o → laneSetEmpty o = false := fun f v o e =>
        Bool.eq_false_iff.mpr fun ho => hu ⟨f, v, o, e, ho⟩
      rw [freeChecked_wanted hwanted, set_self]
      by_cases hc : wasCandidate (t.slot k) = true
      · rw [examineSlot_candidate hc, serveWaitList_of_nil hw, ite_self]
      · refine examineSlot_other fun f v o e => hc (wasCandidate_eq_true.mpr ⟨f, v, o, e, ?_⟩)
        exact laneSetEmpty_eq_false.mp (hwanted f v o (hk ▸ e))

/-- The state with other slots. -/
def State.putSlots (s : State) (slots : List Slot) : State := { s with fpc := { s.fpc with slots := slots } }

/-- With no open waiting, an event's free checks free the slots that are left unwanted and change nothing else. -/
theorem settle_of_no_wait {before : List Slot} {s : State} (hl : before.length = s.fpc.slots.length) (hw : s.fpc.waitList = []) :
    settle before s = s.putSlots (s.fpc.slots.mapIdx fun i c => freeChecked (before.getD i .free) c) := by
  have upTo : ∀ n, n ≤ before.length → (List.range n).foldl (examineTouched before s) s =
      s.putSlots (s.fpc.slots.mapIdx fun i c => if i < n then freeChecked (before.getD i .free) c else c) := by
    intro n hn
    induction n with
    | zero =>
      have : (s.fpc.slots.mapIdx fun i c => if i < 0 then freeChecked (before.getD i .free) c else c) = s.fpc.slots := by
        simp [List.mapIdx_eq_zipIdx_map]
      rw [this]
      rfl
    | succ n ih =>
      have hslot : s.fpc.slots[n]? = some (s.slot n) := by
        rw [State.slot, List.getD_eq_getElem _ _ (by omega), List.getElem?_eq_getElem (by omega)]
      rw [List.range_succ, List.foldl_append, ih (by omega), List.foldl_cons, List.foldl_nil,
        examineTouched_of_no_wait (by exact hw) (slot_of_getElem? (by simp [State.putSlots, hslot]))]
      refine congrArg s.putSlots (List.ext_getElem? fun i => ?_)
      rw [State.putSlots, List.getElem?_set]
      by_cases hi : n = i
      · subst hi
        have hn' : n < s.fpc.slots.length := by omega
        have hget : s.fpc.slots[n] = s.slot n := Option.some.inj ((List.getElem?_eq_getElem hn').symm.trans hslot)
        simp [hn', hget]
      · simp only [hi, if_false, List.getElem?_mapIdx, show (i < n + 1) = (i < n) from propext (by omega)]
  rw [settle_eq, upTo _ (Nat.le_refl _)]
  refine congrArg s.putSlots (List.ext_getElem? fun i => ?_)
  rw [List.getElem?_mapIdx, List.getElem?_mapIdx]
  cases hi : s.fpc.slots[i]? with
  | none => rfl
  | some c => simp [hl, (List.getElem?_eq_some_iff.mp hi).1]

theorem leaveOwed_of_source (l : RLane) (x : Src) (c : Slot) : (if slotSource c = some x then leaveOwed l c else c) = match c with
    | .analysed cur f v h owed => if f.source = x then .analysed cur f v h (owed.set l false) else c
    | c => c := by
  cases c with
  | analysed cur f v h o =>
    by_cases hx : f.source = x
    · exact (if_pos (congrArg some hx)).trans (if_pos hx).symm
    · exact (if_neg fun e => hx (Option.some.inj e)).trans (if_neg hx).symm
  | _ => exact ite_self _

/-- Settles O9: the three outcomes of one free check, an event's checks over the slots it touched, and what they come to when no open
waits. -/
theorem freeCheckAndSettling : Obligations.FreeCheckAndSettling := by
  refine ⟨fun was k s => ⟨?_, ?_, ?_, ?_⟩, ?_, ?_, ?_⟩
  · intro f v o hk ho
    exact examineSlot_unwanted (slot_of_getElem? hk) (laneSetEmpty_eq_true.mpr ho)
  · intro c hk hc hw
    rw [← slot_of_getElem? hk] at hc
    rw [examineSlot_candidate (wasCandidate_eq_true.mpr hc), if_neg fun e => hw (wasCandidate_eq_true.mp e)]
  · intro c hk hc hw
    rw [← slot_of_getElem? hk] at hc
    rw [examineSlot_candidate (wasCandidate_eq_true.mpr hc), if_pos (wasCandidate_eq_true.mpr hw)]
  · intro h
    exact examineSlot_other fun f v o e => h f v o (getElem?_of_slot e (by simp))
  · intro before s hl touchedAt
    have hp : touchedAt = fun k => touched (before.getD k .free) (s.slot k) := by
      funext k
      simp [touchedAt, touched, State.slot]
    rw [hp, List.foldl_filter]
    rfl
  · intro l x s
    exact congrArg (fun g => settle s.fpc.slots (s.mapSlots g)) (funext (leaveOwed_of_source l x))
  · intro before s hl hw
    exact settle_of_no_wait hl hw

/-! ### The choice that serves an open -/

/-- Among numbers within half of the circle, the order is that of their distances from its base (R6). -/
theorem frameBelow_eq_of_comparable {b n m : FrameNo} (hn : (n - b).toNat < 2147483648) (hm : (m - b).toNat < 2147483648) :
    frameBelow m n = decide ((m - b).toNat < (n - b).toNat) := by
  simp only [frameBelow, decide_eq_decide]
  constructor
  · rintro ⟨hne, h⟩
    bv_omega
  · intro h
    constructor <;> bv_omega

/-- The lowest frame found is not farther from the base than any other. -/
theorem lowestOf_least {p : Slot → Bool} {slots : List Slot} {b : FrameNo}
    (hb : ∀ c n, c ∈ slots → p c = true → slotFrame c = some n → (n - b).toNat < 2147483648) {k : Nat} {n : FrameNo}
    (h : lowestOf p slots = some (k, n)) {c : Slot} {m : FrameNo} (hc : c ∈ slots) (hp : p c = true) (hm : slotFrame c = some m) :
    (n - b).toNat ≤ (m - b).toNat := by
  induction slots using List.reverseRecOn generalizing k n with
  | nil => cases hc
  | append_singleton slots d ih =>
    have hb' : ∀ c n, c ∈ slots → p c = true → slotFrame c = some n → (n - b).toNat < 2147483648 := fun c n hc =>
      hb c n (List.mem_append_left _ hc)
    rw [lowestOf_concat] at h
    by_cases hd : ∃ i, p d = true ∧ slotFrame d = some i
    · obtain ⟨i, hpd, hi⟩ := hd
      have hi' := hb d i (by simp) hpd hi
      rcases lowerOf_pass (c := (d, slots.length)) hpd hi (lowestOf p slots) with ⟨e, hlow⟩ | ⟨j, q, e, e', hlow⟩
      · cases e.symm.trans h
        rcases List.mem_append.mp hc with hc | hc
        · cases hold : lowestOf p slots with
          | none =>
            rw [lowestOf_eq_none.mp hold c hc hp] at hm
            cases hm
          | some best =>
            obtain ⟨c', hc', hp', hn'⟩ := lowestOf_mem (k := best.1) (n := best.2) hold
            have hbest := hb' _ _ (List.mem_of_getElem? hc') hp' hn'
            have hless := hlow _ _ hold
            rw [frameBelow_eq_of_comparable hbest hi', decide_eq_true_eq] at hless
            exact (Nat.le_of_lt hless).trans (ih hb' (k := best.1) (n := best.2) hold hc)
        · obtain rfl := List.mem_singleton.mp hc
          rw [hm] at hi
          cases hi
          exact Nat.le_refl _
      · rw [e', e] at h
        cases h
        rcases List.mem_append.mp hc with hc | hc
        · exact ih hb' e hc
        · obtain rfl := List.mem_singleton.mp hc
          rw [hm] at hi
          cases hi
          obtain ⟨c', hc', hp', hn'⟩ := lowestOf_mem e
          rw [frameBelow_eq_of_comparable (hb' _ _ (List.mem_of_getElem? hc') hp' hn') hi', decide_eq_false_iff_not] at hlow
          omega
    · rw [lowerOf_skip (fun m hp hm => hd ⟨m, hp, hm⟩)] at h
      rcases List.mem_append.mp hc with hc | hc
      · exact ih hb' h hc
      · obtain rfl := List.mem_singleton.mp hc
        exact absurd ⟨m, hp, hm⟩ hd

/-- With comparable numbers, what is found is the slot that the test picks by lowest frame number. -/
theorem lowest_of_lowestFrame {p : Slot → Bool} {slots : List Slot} (hc : Comparable p slots) {k : Nat}
    (h : lowestFrame p slots = some k) : Lowest p slots k := by
  obtain ⟨b, hb⟩ := hc
  rw [lowestFrame_eq, Option.map_eq_some_iff] at h
  obtain ⟨⟨j, n⟩, hl, rfl⟩ := h
  obtain ⟨c, hk, hp, hn⟩ := lowestOf_mem hl
  refine ⟨c, n, hk, hp, hn, fun i d m hi hpd hm => ?_⟩
  have hd := List.mem_of_getElem? hi
  rw [frameBelow_eq_of_comparable (hb c n (List.mem_of_getElem? hk) hp hn) (hb d m hd hpd hm), decide_eq_false_iff_not]
  exact Nat.not_lt.mpr (lowestOf_least hb hl hd hpd hm)

/-- A test that only slots with a frame pass finds none exactly when no slot passes. -/
theorem lowestFrame_eq_none {p : Slot → Bool} {slots : List Slot} (hn : Claims.Numbered p slots) :
    lowestFrame p slots = none ↔ ∀ c, c ∈ slots → p c = false := by
  rw [lowestFrame_eq, Option.map_eq_none_iff, lowestOf_eq_none]
  constructor
  · intro h c hc
    refine Bool.eq_false_iff.mpr fun hp => ?_
    have := hn c hc hp
    rw [h c hc hp] at this
    cases this
  · intro h c hc hp
    rw [h c hc] at hp
    cases hp

theorem isCandidate_numbered (x : Src) (slots : List Slot) : Claims.Numbered (isCandidate x) slots := by
  intro c _ hp
  obtain ⟨f, v, o, rfl, -⟩ := isCandidate_eq_true.mp hp
  rfl

theorem isCandidate_eq (x : Src) : isCandidate x = fun c => match c with
    | .analysed false f _ 0 owed => decide (f.source = x) && (owed.r0 || owed.r1 || owed.r2 || owed.r3)
    | _ => false := by
  funext c
  cases c with
  | analysed cur f v h o =>
    cases cur with
    | true => rfl
    | false =>
      cases h with
      | zero => exact congrArg (decide (f.source = x) && ·) (Bool.not_not (o.r0 || o.r1 || o.r2 || o.r3))
      | succ h => rfl
  | _ => rfl

/-- Settles O10: R20 looks for the lowest FREE slot first and for the lowest candidate then. -/
theorem openServedByR20 : Obligations.OpenServedByR20 := by
  intro s x freeAt mayUseFree candidate
  have hcand : candidate = isCandidate x := (isCandidate_eq x).symm
  refine ⟨fun k => ?_, fun k h => ?_, fun k hc h => ?_, ?_⟩
  · rw [openChoice_fromFree, freeChoice_eq_some]
  · obtain ⟨hf, hl⟩ := openChoice_evict.mp h
    rw [lowestFrame_eq, Option.map_eq_some_iff] at hl
    obtain ⟨⟨j, n⟩, hl, rfl⟩ := hl
    obtain ⟨c, hk, hp, -⟩ := lowestOf_mem hl
    exact ⟨freeChoice_eq_none.mp hf, c, hk, by rw [hcand]; exact hp⟩
  · rw [hcand] at hc ⊢
    exact lowest_of_lowestFrame hc (openChoice_evict.mp h).2
  · rw [openChoice_none, freeChoice_eq_none, lowestFrame_eq_none (isCandidate_numbered x _), hcand]

end Sys2Proof.Machine
end

section
/-! What a request's row does once the request is ready, the operations on all rendition lanes at once, and O11: what serving an open
does. -/

namespace Sys2Proof.Machine

open Sys2Proof Sys2Proof.Claims

/-! ### Ready requests and their answers -/

theorem answerHead_eq_reply {s : State} {lane : Lane} {r : Request} {rest : List Request} (h : (s.link lane).queue = r :: rest)
    (code : AnswerCode) (body : List Byte) : answerHead lane code body s = reply lane r rest code body s :=
  answerHead_cons h code body

theorem ready_readyHead {s : State} {lane : Lane} {r : Request} {rest : List Request} (h : Ready s lane r rest) :
    readyHead s lane = some r := by
  obtain ⟨-, hb, hq⟩ := h
  exact readyHead_eq_some.mpr ⟨hb, rest, hq⟩

theorem running_of_high {s : State} (h : s.rstnLow = false) (f : State → Host.Outcome State Fault Refusal) : running s f = f s := by
  simp only [running, h, Bool.false_eq_true, if_false]

theorem ingestRequest_ready {s : State} {x : Src} {r : Request} {rest : List Request} {want : ReqKind}
    (h : Ready s (.il x) r rest) (hk : requestKind r = some want) (body : Src → Request → State → State) :
    ingestRequest want (.il x) body s = .next (body x r s) := by
  simp only [ingestRequest, running_of_high h.1, ready_readyHead h, hk, if_true]

theorem renditionRequest_ready {s : State} {l : RLane} {r : Request} {rest : List Request} {test : Request → Bool}
    (h : Ready s (.rl l) r rest) (ht : test r = true) (body : RLane → Request → State → State) :
    renditionRequest test (.rl l) body s = .next (body l r s) := by
  simp only [renditionRequest, running_of_high h.1, ready_readyHead h, ht, if_true]

/-! ### All rendition lanes at once -/

/-- Every rendition lane is changed, each by its own function. -/
def mapRl (f : RLane → RenditionLane → RenditionLane) (s : State) : State :=
  { s with rl := ⟨f .r0 s.rl.r0, f .r1 s.rl.r1, f .r2 s.rl.r2, f .r3 s.rl.r3⟩ }

@[simp] theorem mapRl_get (f : RLane → RenditionLane → RenditionLane) (s : State) (l : RLane) :
    (mapRl f s).rl.get l = f l (s.rl.get l) := by
  cases l <;> rfl

/-- Going through the lanes in order changes each by its own function. -/
theorem foldl_modRl (f : RLane → RenditionLane → RenditionLane) (s : State) :
    rlAll.foldl (fun s l => s.modRl l (f l)) s = mapRl f s := rfl

theorem modRl_if (p : Prop) [Decidable p] (l : RLane) (f : RenditionLane → RenditionLane) (s : State) :
    (if p then s.modRl l f else s) = s.modRl l fun r => if p then f r else r := by
  split
  · simp only [*]
  · simp only [*, State.modRl, PerRL.set_get]

/-- A lane whose record is changed twice. -/
theorem modRl_modRl (l : RLane) (f g : RenditionLane → RenditionLane) (s : State) :
    (s.modRl l f).modRl l g = s.modRl l fun r => g (f r) := by
  simp only [State.modRl, PerRL.get_set_self, PerRL.set_set]

theorem placeNotice_eq (l : RLane) (n : Notice) (s : State) : placeNotice l n s = s.modRl l (noticed n) := by
  unfold placeNotice
  congr 1
  funext r
  simp only [noticed, List.drop_one]
  rfl

/-! ### Serving an open -/

theorem freeCount_fillSlot {s : State} {k : Nat} (hk : s.fpc.slots[k]? = some .free) (x : Src) (p : Pts) :
    (fillSlot x p k s).freeCount = s.freeCount - 1 := by
  obtain ⟨hl, he⟩ := List.getElem?_eq_some_iff.mp hk
  show (s.fpc.slots.set k (.filling x p 0)).countP _ = _
  rw [List.countP_set hl, he]
  simp only [slotUsed, slotState, State.freeCount]
  rfl

/-- The lanes owed the frame of an eviction get its LOST notice, and the eviction is counted (R21). -/
def noteEviction (f : SealedFrame) (o : PerRL Bool) (s : State) : State :=
  (mapRl (fun l r => if o.get l then { noticed (.lost f.source f.number) r with lost := satAdd r.lost 1 } else r) s).modCounters
    f.source fun c => { c with evictions := satAdd c.evictions 1 }

theorem evictFrame_eq {s : State} {k : Nat} {cur : Bool} {f : SealedFrame} {v : Verdict} {h : Nat} {o : PerRL Bool}
    (hk : s.slot k = .analysed cur f v h o) : evictFrame k s =
      fireEvent ⟨.evict, some f.source, some f.number⟩ (noteEviction f o s) := by
  have hlost : ∀ (r : RenditionLane), (noticed (.lost f.source f.number) r).lost = r.lost := fun r => by
    unfold noticed
    split <;> rfl
  simp only [evictFrame, hk, placeNotice_eq, modRl_modRl, hlost, modRl_if, foldl_modRl, noteEviction]

/-- Settles O11: an open served from a FREE slot fills it and may fire POOL_LOW; one served by eviction notes the eviction first. -/
theorem openServiceEffects : Obligations.OpenServiceEffects := by
  intro s x pts k r rest hq fill ok
  have hfill : ∀ u : State, (u.il.get x).link.queue = r :: rest →
      answerHead (.il x) .ok (beBytes 1 k) (fillSlot x pts k u) = ok (fill u) := fun u hu =>
    answerHead_eq_reply (by simpa [fillSlot, State.link] using hu) ..
  refine ⟨fun hk => ?_, fun cur f v h owed hk => ?_⟩
  · have hlow : notePoolLow s.freeCount (fillSlot x pts k s) = if s.fpc.poolLow ≤ s.freeCount ∧ s.freeCount - 1 < s.fpc.poolLow
        then fireEvent { kind := .poolLow, source := none, frame := none } (fill s) else fill s := by
      rw [notePoolLow, freeCount_fillSlot hk]
      rfl
    show answerHead (.il x) .ok (beBytes 1 k) (notePoolLow s.freeCount (fillSlot x pts k s)) = _
    rw [hlow]
    split
    · exact answerHead_eq_reply (by simpa [fill, State.link] using hq) ..
    · exact answerHead_eq_reply (by simpa [fill, State.link] using hq) ..
  · refine ⟨noteEviction f owed s, ?_, fun l => mapRl_get (fun l r =>
      if owed.get l then { noticed (.lost f.source f.number) r with lost := satAdd r.lost 1 } else r) s l, rfl⟩
    rw [serveOpen, evictFrame_eq (slot_of_getElem? hk)]
    exact hfill _ (by rw [fireEvent_il]; exact hq)

end Sys2Proof.Machine
end

section
/-! O16, O19: what OPEN_FRAME, SEAL_FRAME and ABANDON_FRAME do. -/

namespace Sys2Proof.Machine

open Sys2Proof Sys2Proof.Claims

/-- An ingest row whose request is answered at once. -/
theorem ingestRequest_answers {s : State} {x : Src} {r : Request} {rest : List Request} {want : ReqKind}
    (h : Ready s (.il x) r rest) (hk : requestKind r = some want) {body : Src → Request → State → State} {code : AnswerCode}
    {data : List Byte} (hb : body x r s = answerHead (.il x) code data s) :
    ingestRequest want (.il x) body s = .next (reply (.il x) r rest code data s) := by
  rw [ingestRequest_ready h hk, hb, answerHead_eq_reply h.2.2]

theorem link_modIl_of_link {s : State} {x : Src} {f : IngestLane → IngestLane} (h : (f (s.il.get x)).link = (s.il.get x).link) :
    (s.modIl x f).link (.il x) = s.link (.il x) := by
  simp only [State.link, State.modIl_il, PerSource.get_set_self, h]

/-! ### OPEN_FRAME -/

theorem waitOrDrop_eq {s : State} {x : Src} {r : Request} {rest : List Request} (hq : (s.link (.il x)).queue = r :: rest) (tag : Byte)
    (p : Pts) : waitOrDrop x tag p s =
      if (s.il.get x).openLimit = 0 then reply (.il x) r rest .poolFull [] (s.modCounters x fun c => { c with drops := satAdd c.drops 1 })
      else joinWait x tag p (later s.tcu.time ((s.il.get x).openLimit * 1000)) s := by
  unfold waitOrDrop
  dsimp only
  split
  · exact answerHead_eq_reply (by exact hq) ..
  · rfl

theorem openBody_answers {s : State} {x : Src} {r : Request} :
    (s.fpc.plan = none → openBody x r s = answerHead (.il x) .noPlan [] s) ∧
    (s.fpc.plan ≠ none → s.enabled x = false → openBody x r s = answerHead (.il x) .badArg [] s) ∧
    (s.fpc.plan ≠ none → s.enabled x = true → (s.il.get x).openFrame ≠ none → openBody x r s = answerHead (.il x) .order [] s) := by
  refine ⟨fun hp => ?_, fun hp he => ?_, fun hp he ho => ?_⟩
  · simp only [openBody, hp]
  · obtain ⟨p, hp⟩ := Option.ne_none_iff_exists'.mp hp
    simp only [openBody, hp, he, Bool.not_false, if_true]
  · obtain ⟨p, hp⟩ := Option.ne_none_iff_exists'.mp hp
    simp only [openBody, hp, he, Bool.not_true, Bool.false_eq_true, if_false, Option.isSome_iff_ne_none.mpr ho, if_true]

/-- An open that passes the checks is served as chosen, or waits or is dropped. -/
theorem openBody_opens {s : State} {x : Src} {r : Request} (hp : s.fpc.plan ≠ none) (he : s.enabled x = true)
    (ho : (s.il.get x).openFrame = none) :
    (∀ c, openChoice x s = some c → openBody x r s = serveOpen x (BitVec.ofNat 48 (field r.payload 0 6)) c s) ∧
    (openChoice x s = none → openBody x r s = waitOrDrop x r.tag (BitVec.ofNat 48 (field r.payload 0 6)) s) := by
  obtain ⟨p, hp⟩ := Option.ne_none_iff_exists'.mp hp
  refine ⟨fun c hc => ?_, fun hc => ?_⟩ <;>
    simp only [openBody, hp, he, Bool.not_true, Bool.false_eq_true, if_false, ho, Option.isSome_none, hc]

theorem field_all {p : List Byte} {n : Nat} (h : p.length = n) : field p 0 n = beNat p := by
  rw [field, List.drop_zero, List.take_of_length_le (Nat.le_of_eq h)]

/-- Settles O16: the checks in order, then the service, the refusal or the wait. -/
theorem openFrameMeaning : Obligations.OpenFrameMeaning := by
  intro s x tag p rest hp r pts due h
  have hk : requestKind r = some .openFrame := by simp [requestKind, reqKindOf, lengthSuits, r, hp]
  obtain ⟨hnone, hbad, horder⟩ := openBody_answers (s := s) (x := x) (r := r)
  split
  · next hplan => exact ingestRequest_answers h hk (hnone hplan)
  · next hplan =>
    split
    · next he => exact ingestRequest_answers h hk (hbad hplan he)
    · next he =>
      have he : s.enabled x = true := by simpa using he
      split
      · next ho => exact ingestRequest_answers h hk (horder hplan he ho)
      · next ho =>
        obtain ⟨hserves, hwaits⟩ := openBody_opens (r := r) hplan he (not_not.mp ho)
        have hpts : BitVec.ofNat 48 (field r.payload 0 6) = pts := congrArg _ (field_all hp)
        refine (ingestRequest_ready h hk openBody).trans ?_
        cases hc : openChoice x s with
        | some c =>
          rw [hserves c hc, hpts]
        | none =>
          rw [hwaits hc, hpts, waitOrDrop_eq h.2.2, Nat.mul_comm]
          dsimp only
          split
          · rfl
          · rfl

/-! ### SEAL_FRAME and ABANDON_FRAME -/

/-- A seal that passes the checks: the new state of the pool, the answer, and the analysis an idle detector starts. -/
theorem sealSlot_eq {s : State} {x : Src} {r : Request} {rest : List Request} (hq : (s.link (.il x)).queue = r :: rest) (k : Nat)
    (y : Src) (p : Pts) : sealSlot x k y p s = startAnalysis (reply (.il x) r rest .ok
        (beBytes 4 (s.fpc.nextFrame.get x).toNat ++ beBytes 4 s.tcu.time.toNat)
        (({ s with
          fpc := { s.fpc with
            slots := s.fpc.slots.set k (.queued { source := y, number := s.fpc.nextFrame.get x, pts := p, arrival := s.tcu.time })
            nextFrame := s.fpc.nextFrame.set x (s.fpc.nextFrame.get x + 1) }
          cd := { s.cd with queue := s.cd.queue ++ [k] }
          tcu := { s.tcu with cadence := s.tcu.cadence.set x (cadenceSealed s.tcu.time (s.tcu.cadence.get x)) } } : State).modIl x
            fun i => { i with openFrame := none })) := by
  unfold sealSlot
  exact congrArg startAnalysis (answerHead_eq_reply (by
    rw [link_modIl_of_link rfl]
    exact hq) ..)

theorem sealBody_answers {s : State} {x : Src} {r : Request} :
    (s.fpc.plan = none → sealBody x r s = answerHead (.il x) .noPlan [] s) ∧
    (s.fpc.plan ≠ none → (s.il.get x).openFrame = none → sealBody x r s = answerHead (.il x) .notFilling [] s) := by
  refine ⟨fun hp => ?_, fun hp ho => ?_⟩
  · simp only [sealBody, hp]
  · obtain ⟨p, hp⟩ := Option.ne_none_iff_exists'.mp hp
    simp only [sealBody, hp, ho]

theorem sealBody_filling {s : State} {x : Src} {r : Request} (hp : s.fpc.plan ≠ none) {k : Nat} (ho : (s.il.get x).openFrame = some k)
    {y : Src} {p : Pts} {m : Nat} (hk : s.fpc.slots[k]? = some (.filling y p m)) :
    sealBody x r s = if m < s.rows x then answerHead (.il x) .incomplete (beBytes 1 m) s else sealSlot x k y p s := by
  obtain ⟨q, hp⟩ := Option.ne_none_iff_exists'.mp hp
  simp only [sealBody, hp, ho, slot_of_getElem? hk]

theorem abandonBody_answers {s : State} {x : Src} {r : Request} :
    (s.fpc.plan = none → abandonBody x r s = answerHead (.il x) .noPlan [] s) ∧
    (s.fpc.plan ≠ none → (s.il.get x).openFrame = none → abandonBody x r s = answerHead (.il x) .notFilling [] s) := by
  refine ⟨fun hp => ?_, fun hp ho => ?_⟩
  · simp only [abandonBody, hp]
  · obtain ⟨p, hp⟩ := Option.ne_none_iff_exists'.mp hp
    simp only [abandonBody, hp, ho]

theorem abandonBody_filling {s : State} {x : Src} {r : Request} (hp : s.fpc.plan ≠ none) {k : Nat}
    (ho : (s.il.get x).openFrame = some k) : abandonBody x r s =
      serveWaitList (answerHead (.il x) .ok [] ((s.setSlot k .free).modIl x fun l => { l with openFrame := none })) := by
  obtain ⟨q, hp⟩ := Option.ne_none_iff_exists'.mp hp
  simp only [abandonBody, hp, ho]

/-- Settles O19: the checks of a seal and of an abandon, and what each does when it passes. -/
theorem sealAndAbandonMeaning : Obligations.SealAndAbandonMeaning := by
  intro s x tag rest q r now n cad
  have hq : requestKind q = some .sealFrame := rfl
  have hr : requestKind r = some .abandonFrame := rfl
  obtain ⟨hsealNone, hsealNot⟩ := sealBody_answers (s := s) (x := x) (r := q)
  obtain ⟨habandonNone, habandonNot⟩ := abandonBody_answers (s := s) (x := x) (r := r)
  refine ⟨fun h hp => ingestRequest_answers h hq (hsealNone hp), fun h hp ho => ingestRequest_answers h hq (hsealNot hp ho),
    fun k y p m h hp ho hk hm => ?_, fun k y p m h hp ho hk hm => ?_,
    fun h hp => ingestRequest_answers h hr (habandonNone hp), fun h hp ho => ingestRequest_answers h hr (habandonNot hp ho),
    fun k h hp ho => ?_⟩
  · exact ingestRequest_answers h hq ((sealBody_filling hp ho hk).trans (if_pos hm))
  · refine (ingestRequest_ready h hq sealBody).trans ?_
    rw [sealBody_filling hp ho hk, if_neg (Nat.not_lt.mpr hm), sealSlot_eq h.2.2]
    rfl
  · refine (ingestRequest_ready h hr abandonBody).trans ?_
    rw [abandonBody_filling hp ho, answerHead_eq_reply (by rw [link_modIl_of_link rfl]; exact h.2.2)]
    rfl

end Sys2Proof.Machine
end

section
/-! O20, O21, O22: what BIND, UNBIND and SUBSCRIBE do, and what taking a frame does. -/

namespace Sys2Proof.Machine

open Sys2Proof Sys2Proof.Claims

/-! ### The rendition lanes' links -/

/-- The links of the rendition lanes, which an event's aftermath leaves alone. -/
def State.rlLinks (s : State) (l : RLane) : Link := (s.rl.get l).link

theorem rlLinks_modRl {s : State} {l : RLane} {f : RenditionLane → RenditionLane}
    (h : (f (s.rl.get l)).link = (s.rl.get l).link) : (s.modRl l f).rlLinks = s.rlLinks := by
  show (fun j => ((s.rl.set l (f (s.rl.get l))).get j).link) = fun j => (s.rl.get j).link
  rw [PerRL.comp_get_set RenditionLane.link, h]
  exact Function.update_eq_self l fun j => (s.rl.get j).link

theorem noticed_link (n : Notice) (r : RenditionLane) : (noticed n r).link = r.link := by
  unfold noticed
  split <;> rfl

@[simp] theorem rlLinks_placeNotice (l : RLane) (n : Notice) (s : State) : (placeNotice l n s).rlLinks = s.rlLinks := by
  rw [placeNotice_eq]
  exact rlLinks_modRl (noticed_link n _)

@[simp] theorem rlLinks_fireChannel (c : Nat) (e : Event) (s : State) : (fireChannel c e s).rlLinks = s.rlLinks :=
  foldl_keep State.rlLinks _ (fun u l => by split <;> simp) rlAll s

@[simp] theorem rlLinks_fireEvent (e : Event) (s : State) : (fireEvent e s).rlLinks = s.rlLinks :=
  foldl_keep State.rlLinks _ (fun u c => by split <;> simp) _ _

@[simp] theorem rlLinks_evictFrame (k : Nat) (s : State) : (evictFrame k s).rlLinks = s.rlLinks := by
  unfold evictFrame
  split
  · rw [rlLinks_fireEvent]
    refine foldl_keep State.rlLinks _ (fun u l => ?_) rlAll s
    split
    · exact (rlLinks_modRl rfl).trans (rlLinks_placeNotice ..)
    · rfl
  · rfl

@[simp] theorem rlLinks_answerHead_il (x : Src) (c : AnswerCode) (b : List Byte) (s : State) :
    (answerHead (.il x) c b s).rlLinks = s.rlLinks := by
  unfold answerHead
  split <;> rfl

@[simp] theorem rlLinks_serveOpen (x : Src) (p : Pts) (c : OpenChoice) (s : State) :
    (serveOpen x p c s).rlLinks = s.rlLinks := by
  have hfill : ∀ (k : Nat) (u : State), (fillSlot x p k u).rlLinks = u.rlLinks := fun _ _ => rfl
  cases c with
  | fromFree k =>
    rw [serveOpen, rlLinks_answerHead_il]
    unfold notePoolLow
    split
    · rw [rlLinks_fireEvent, hfill]
    · exact hfill k s
  | evict k => rw [serveOpen, rlLinks_answerHead_il, hfill, rlLinks_evictFrame]

@[simp] theorem rlLinks_serveWaitList (s : State) : (serveWaitList s).rlLinks = s.rlLinks :=
  serveWaitList_inv (fun u => u.rlLinks = s.rlLinks) (fun u t hu ht => by
    obtain ⟨e, c, -, -, rfl⟩ := serveWaitOnce_eq_some ht
    rw [rlLinks_serveOpen]
    exact hu) s rfl

@[simp] theorem rlLinks_examineSlot (was : Slot) (k : Nat) (s : State) : (examineSlot was k s).rlLinks = s.rlLinks := by
  rcases examineSlot_cases was k s with h | h | ⟨f, v, o, -, -, h⟩
  · rw [h]
  · rw [h, rlLinks_serveWaitList]
  · rw [h, rlLinks_serveWaitList]
    rfl

@[simp] theorem rlLinks_settle (before : List Slot) (s : State) : (settle before s).rlLinks = s.rlLinks :=
  settle_inv (fun u => u.rlLinks = s.rlLinks) (fun was k u hu => (rlLinks_examineSlot was k u).trans hu) before s rfl

@[simp] theorem rlLinks_leaveSource (l : RLane) (x : Src) (s : State) : (leaveSource l x s).rlLinks = s.rlLinks := by
  rw [leaveSource, rlLinks_settle]
  rfl

/-- The answer to a rendition lane's request after changes that leave the links of the rendition lanes alone. -/
theorem answerHead_rl {s t : State} {l : RLane} {r : Request} {rest : List Request} (hq : (s.link (.rl l)).queue = r :: rest)
    (h : t.rlLinks = s.rlLinks) (code : AnswerCode) (body : List Byte) :
    answerHead (.rl l) code body t = reply (.rl l) r rest code body t :=
  answerHead_eq_reply (lane := .rl l) ((congrArg Link.queue (congrFun h l)).trans hq) code body

/-- A rendition row whose request is answered at once. -/
theorem renditionRequest_answers {s : State} {l : RLane} {r : Request} {rest : List Request} {test : Request → Bool}
    (h : Ready s (.rl l) r rest) (ht : test r = true) {body : RLane → Request → State → State} {code : AnswerCode}
    {data : List Byte} (hb : body l r s = answerHead (.rl l) code data s) :
    renditionRequest test (.rl l) body s = .next (reply (.rl l) r rest code data s) := by
  rw [renditionRequest_ready h ht, hb, answerHead_eq_reply h.2.2]

/-- A rendition row whose request is answered after changes that leave the links of the rendition lanes alone. -/
theorem renditionRequest_does {s u : State} {l : RLane} {r : Request} {rest : List Request} {test : Request → Bool}
    (h : Ready s (.rl l) r rest) (ht : test r = true) {body : RLane → Request → State → State} {code : AnswerCode}
    {data : List Byte} (hb : body l r s = answerHead (.rl l) code data u) (hu : u.rlLinks = s.rlLinks) :
    renditionRequest test (.rl l) body s = .next (reply (.rl l) r rest code data u) := by
  rw [renditionRequest_ready h ht, hb, answerHead_rl h.2.2 hu]

/-! ### BIND -/

theorem bound_by_other_iff {s : State} {l : RLane} {x : Src} {b : Binding} (h : (s.rl.get l).binding = some b) :
    s.boundTo l (otherSrc x) = true ↔ b.source ≠ x := by
  simp only [State.boundTo, h, decide_eq_true_eq]
  cases b.source <;> cases x <;> simp [otherSrc]

/-- What BIND answers when it fails a check. -/
theorem bindBody_plan {s : State} {l : RLane} {r : Request} (h : s.fpc.plan = none) :
    bindBody l r s = answerHead (.rl l) .noPlan [] s := by
  simp only [bindBody, h]

theorem bindBody_source {s : State} {l : RLane} {r : Request} (hp : s.fpc.plan ≠ none) (h : srcOf (field r.payload 0 1) = none) :
    bindBody l r s = answerHead (.rl l) .badArg [] s := by
  obtain ⟨p, hp⟩ := Option.ne_none_iff_exists'.mp hp
  simp only [bindBody, hp, h]

/-- The checks of BIND once the source is known. -/
theorem bindBody_checks {s : State} {l : RLane} {r : Request} {p : Plan} {x : Src} (hp : s.fpc.plan = some p)
    (hx : srcOf (field r.payload 0 1) = some x) : bindBody l r s =
      if ¬ ((p.source.get x).enabled = true ∧ windowValid (64 * (p.source.get x).cols) (64 * (p.source.get x).rows) (windowOf r.payload) = true)
      then answerHead (.rl l) .badArg [] s
      else if costTooHigh s.ms l (bandCost (windowOf r.payload)) = true then answerHead (.rl l) .windowCost [] s
      else if s.boundTo l (otherSrc x) = true ∧ (s.rl.get l).holds ≠ [] then answerHead (.rl l) .busy [] s
      else answerHead (.rl l) .ok (beBytes 2 (outWidth (windowOf r.payload)) ++ beBytes 2 (outHeight (windowOf r.payload)) ++
        beBytes 1 (bandCount (windowOf r.payload))) (applyBind l x (windowOf r.payload) s) := by
  simp only [bindBody, hp, hx, Bool.or_eq_true, Bool.and_eq_true, Bool.not_eq_eq_eq_not, Bool.not_true, List.isEmpty_eq_false_iff, not_and_or, Bool.not_eq_true]

theorem applyBind_unbound {s : State} {l : RLane} (x : Src) (v : Window) (h : (s.rl.get l).binding = none) :
    applyBind l x v s = bindFresh l x v s := by
  simp only [applyBind, h]

theorem applyBind_same {s : State} {l : RLane} {x : Src} {b : Binding} (v : Window) (h : (s.rl.get l).binding = some b)
    (hx : b.source = x) : applyBind l x v s = s.modRl l fun r => { r with binding := some { source := x, window := v } } := by
  simp only [applyBind, h, hx, if_true]

theorem applyBind_other {s : State} {l : RLane} {x : Src} {b : Binding} (v : Window) (h : (s.rl.get l).binding = some b)
    (hx : b.source ≠ x) : applyBind l x v s =
      bindFresh l x v (leaveSource l b.source (s.modRl l fun r => { r with binding := none, mark := none })) := by
  simp only [applyBind, h, hx, if_false]

@[simp] theorem rlLinks_bindFresh (l : RLane) (x : Src) (v : Window) (s : State) : (bindFresh l x v s).rlLinks = s.rlLinks :=
  rlLinks_modRl rfl

@[simp] theorem rlLinks_applyBind (l : RLane) (x : Src) (v : Window) (s : State) : (applyBind l x v s).rlLinks = s.rlLinks := by
  unfold applyBind
  split
  · simp
  · split
    · exact rlLinks_modRl rfl
    · rw [rlLinks_bindFresh, rlLinks_leaveSource]
      exact rlLinks_modRl rfl

/-- The band cost is within the cap in force and the cap that a pending schedule will give (R93, R140). -/
theorem costTooHigh_eq_true {m : Scheduler} {l : RLane} {cost : Nat} : costTooHigh m l cost = true ↔
    ¬ (cost ≤ 2 * m.schedule.allowance.get (.rl l) ∧
      ∀ n, m.pendingSchedule = some n → cost ≤ 2 * n.allowance.get (.rl l)) := by
  unfold costTooHigh
  rw [Bool.or_eq_true, decide_eq_true_eq]
  cases hp : m.pendingSchedule with
  | none => simp [capOf, PerReq.get]
  | some n =>
    dsimp only
    rw [decide_eq_true_eq]
    simp only [Option.some.injEq, forall_eq', not_and_or, not_le]
    rfl

theorem srcOf_byte (b : Byte) : srcOf (field [b] 0 1) = source b := by
  have h0 : b = 0 ↔ b.toNat = 0 := by bv_omega
  have h1 : b = 1 ↔ b.toNat = 1 := by bv_omega
  have hf : field [b] 0 1 = b.toNat := by simp [field, beNat]
  rw [hf, source]
  simp only [h0, h1]
  match hn : b.toNat with
  | 0 => rfl
  | 1 => rfl
  | n + 2 => rfl

end Sys2Proof.Machine
end

section
/-! O20, O21, O22: BIND, UNBIND, SUBSCRIBE and the taking of a frame. -/

namespace Sys2Proof.Machine

open Sys2Proof Sys2Proof.Claims

/-! ### BIND -/

theorem beNat_pair (a b : Byte) : beNat [a, b] = two a b := by simp [beNat, two]

theorem beNat_single (a : Byte) : beNat [a] = a.toNat := by simp [beNat]

theorem toNat_ne_zero_iff {b : Byte} : b.toNat ≠ 0 ↔ b ≠ 0 := by
  rw [ne_eq, ne_eq, BitVec.toNat_eq]
  rfl

/-- The window that a BIND's payload spells (R181). -/
theorem windowOf_bytes (b0 xh xl yh yl wh wl hh hl d g : Byte) : windowOf [b0, xh, xl, yh, yl, wh, wl, hh, hl, d, g] =
    { x0 := two xh xl, y0 := two yh yl, w := two wh wl, h := two hh hl, d := d.toNat, badge := decide (g ≠ 0) } := by
  show Window.mk (beNat [xh, xl]) (beNat [yh, yl]) (beNat [wh, wl]) (beNat [hh, hl]) (beNat [d]) (decide (beNat [g] ≠ 0)) = _
  simp only [beNat_pair, beNat_single, toNat_ne_zero_iff]

theorem windowValid_iff {W H : Nat} {v : Window} : windowValid W H v = true ↔
    1 ≤ v.d ∧ v.d ≤ 4 ∧ v.x0 % 2 = 0 ∧ v.x0 + 2 ≤ W ∧ v.y0 % 2 = 0 ∧ v.y0 + 2 ≤ H ∧
      v.w % (8 * v.d) = 0 ∧ 8 * v.d ≤ v.w ∧ v.w ≤ 2048 ∧ v.h % (8 * v.d) = 0 ∧ 8 * v.d ≤ v.h ∧ v.h ≤ 1280 := by
  simp only [windowValid, Bool.and_eq_true, decide_eq_true_eq, and_assoc]

/-- Settles O20: the checks in order, then the binding, which a lane with another source makes after leaving its old one. -/
theorem bindMeaning : Obligations.BindMeaning := by
  intro s l tag b0 xh xl yh yl wh wl hh hl d g rest r w h v cost valid no ok bound hr
  have ht : isKind .bind r = true := rfl
  have hsrc : srcOf (field r.payload 0 1) = source b0 := srcOf_byte b0
  have hv : windowOf r.payload = v := windowOf_bytes ..
  refine ⟨fun hp => renditionRequest_answers hr ht (bindBody_plan hp),
    fun hp hx => renditionRequest_answers hr ht (bindBody_source hp (hsrc.trans hx)), ?_⟩
  intro p x hp hx q fits inCap
  have checks := bindBody_checks (l := l) hp (hsrc.trans hx)
  rw [hv] at checks
  have hfits : (q.enabled = true ∧ windowValid (64 * q.cols) (64 * q.rows) v = true) ↔ fits := and_congr_right fun _ => windowValid_iff
  have hcost : costTooHigh s.ms l (bandCost v) = true ↔ ¬ inCap := costTooHigh_eq_true
  refine ⟨fun hf => ?_, fun hf hc => ?_, fun hf hc => ?_⟩
  · exact renditionRequest_answers hr ht (checks.trans (if_pos fun e => hf (hfits.mp e)))
  · rw [if_neg (not_not.mpr (hfits.mpr hf)), if_pos (hcost.mpr hc)] at checks
    exact renditionRequest_answers hr ht checks
  · rw [if_neg (not_not.mpr (hfits.mpr hf)), if_neg (fun e => hcost.mp e hc)] at checks
    cases hb : (s.rl.get l).binding with
    | none =>
      have hfree : ¬ (s.boundTo l (otherSrc x) = true ∧ (s.rl.get l).holds ≠ []) := fun e => by
        simp [State.boundTo, hb] at e
      rw [if_neg hfree, applyBind_unbound x v hb] at checks
      exact renditionRequest_does hr ht checks (rlLinks_bindFresh ..)
    | some b =>
      dsimp only
      split
      · next hbx =>
        have hsame : ¬ (s.boundTo l (otherSrc x) = true ∧ (s.rl.get l).holds ≠ []) := fun e => (bound_by_other_iff hb).mp e.1 hbx
        rw [if_neg hsame, applyBind_same v hb hbx] at checks
        exact renditionRequest_does hr ht checks (rlLinks_modRl rfl)
      · next hbx =>
        split
        · next hh => exact renditionRequest_answers hr ht (checks.trans (if_pos ⟨(bound_by_other_iff hb).mpr hbx, hh⟩))
        · next hh =>
          have heq := applyBind_other v hb hbx
          rw [if_neg fun e => hh e.2] at checks
          refine (renditionRequest_does hr ht checks (rlLinks_applyBind ..)).trans ?_
          rw [heq]
          rfl

/-! ### UNBIND and SUBSCRIBE -/

theorem unbindBody_eq {s : State} {l : RLane} {r : Request} (hp : s.fpc.plan ≠ none) {b : Binding}
    (hb : (s.rl.get l).binding = some b) : unbindBody l r s =
      if (s.rl.get l).holds ≠ [] then answerHead (.rl l) .busy [] s
      else answerHead (.rl l) .ok [] (leaveSource l b.source (s.modRl l fun r => { r with binding := none, mark := none })) := by
  obtain ⟨p, hp⟩ := Option.ne_none_iff_exists'.mp hp
  simp only [unbindBody, hp, hb, Bool.not_eq_eq_eq_not, Bool.not_true, List.isEmpty_eq_false_iff]

theorem unbindBody_answers {s : State} {l : RLane} {r : Request} :
    (s.fpc.plan = none → unbindBody l r s = answerHead (.rl l) .noPlan [] s) ∧
    (s.fpc.plan ≠ none → (s.rl.get l).binding = none → unbindBody l r s = answerHead (.rl l) .notBound [] s) := by
  refine ⟨fun hp => ?_, fun hp hb => ?_⟩
  · simp only [unbindBody, hp]
  · obtain ⟨p, hp⟩ := Option.ne_none_iff_exists'.mp hp
    simp only [unbindBody, hp, hb]

theorem ofNat_byte_eq_extract (m : Byte) : BitVec.ofNat 6 (field [m] 0 1) = m.extractLsb' 0 6 := by
  rw [show field [m] 0 1 = m.toNat from beNat_single m]
  apply BitVec.eq_of_toNat_eq
  simp [BitVec.extractLsb'_toNat]

/-- Settles O21: the checks of UNBIND and its effect, and the new mask of SUBSCRIBE. -/
theorem unbindAndSubscribeMeaning : Obligations.UnbindAndSubscribeMeaning := by
  refine ⟨?_, ?_⟩
  · intro s l tag rest r no hr
    have ht : isKind .unbind r = true := rfl
    obtain ⟨hnone, hnot⟩ := unbindBody_answers (s := s) (l := l) (r := r)
    refine ⟨fun hp => renditionRequest_answers hr ht (hnone hp), fun hp hb => renditionRequest_answers hr ht (hnot hp hb),
      fun b hp hb hh => renditionRequest_answers hr ht ((unbindBody_eq hp hb).trans (if_pos hh)), fun b hp hb hh => ?_⟩
    have hlinks : (leaveSource l b.source (s.modRl l fun r => { r with binding := none, mark := none })).rlLinks = s.rlLinks :=
      (rlLinks_leaveSource ..).trans (rlLinks_modRl rfl)
    refine (renditionRequest_does hr ht ((unbindBody_eq hp hb).trans (if_neg (not_not.mpr hh))) hlinks).trans ?_
    exact congrArg (fun g => Host.Outcome.next (reply (.rl l) r rest .ok []
      (settle s.fpc.slots ((s.modRl l fun r => { r with binding := none, mark := none }).mapSlots g))))
      (funext (leaveOwed_of_source l b.source))
  · intro s l tag m rest r hr
    refine (renditionRequest_does hr rfl rfl (rlLinks_modRl rfl)).trans ?_
    exact congrArg (fun n => Host.Outcome.next (reply (.rl l) r rest .ok [] (s.modRl l fun k => { k with subs := n })))
      (ofNat_byte_eq_extract m)

/-! ### Taking a frame -/

/-- The lane leaves the owed sets of a source's frames numbered at most n. -/
theorem leaveOwed_of_atMost (l : RLane) (x : Src) (n : FrameNo) (c : Slot) :
    (if atMost x n c then leaveOwed l c else c) = match c with
      | .analysed cur f v h o =>
        if f.source = x ∧ (n - f.number).toNat < 2147483648 then .analysed cur f v h (o.set l false) else c
      | c => c := by
  cases c with
  | analysed cur f v h o =>
    have hiff : atMost x n (.analysed cur f v h o) = true ↔ f.source = x ∧ (n - f.number).toNat < 2147483648 := by
      simp [atMost, slotSource, slotFrame, frameAtMost]
    by_cases hx : f.source = x ∧ (n - f.number).toNat < 2147483648
    · exact (if_pos (hiff.mpr hx)).trans (if_pos hx).symm
    · exact (if_neg fun e => hx (hiff.mp e)).trans (if_neg hx).symm
  | _ => exact ite_self _

/-- A lane that has taken frame f of slot k, before the free checks, with its skipped count. -/
def takenState (l : RLane) (b : Binding) (k : Nat) (f : SealedFrame) (s : State) : State :=
  (claimSlots l b.source k f.number s).modRl l fun r => { r with
    holds := r.holds ++ [{ slot := k, frame := f.number, window := b.window }]
    skipped := match r.mark with
      | some m => satAdd r.skipped (f.number - m - 1).toNat
      | none => r.skipped
    mark := some f.number
    pendingClaim := none }

theorem takeFrame_eq {s : State} {l : RLane} {k : Nat} {cur : Bool} {f : SealedFrame} {v : Verdict} {h : Nat} {o : PerRL Bool}
    (hk : s.slot k = .analysed cur f v h o) (b : Binding) : takeFrame l b k s =
      answerHead (.rl l) .ok (claimBody k f v b.window) (settle s.fpc.slots (takenState l b k f s)) := by
  simp only [takeFrame, hk, takenState] <;> rfl

/-- Settles O22: what taking a frame changes before the free checks, and the answer with its fields. -/
theorem claimEffects : Obligations.ClaimEffects := by
  intro s l b k cur f v h owed r rest hk hx hq lane own
  have hslot := slot_of_getElem? hk
  have hlinks : (settle s.fpc.slots (takenState l b k f s)).rlLinks = s.rlLinks :=
    (rlLinks_settle ..).trans ((rlLinks_modRl rfl).trans rfl)
  have hslots : claimSlots l b.source k f.number s = s.putSlots ((s.fpc.slots.set k (.analysed cur f v (h + 1) owed)).map own) := by
    rw [claimSlots, hslot]
    exact congrArg (fun g => (s.setSlot k (.analysed cur f v (h + 1) owed)).mapSlots g)
      (funext (leaveOwed_of_atMost l b.source f.number))
  rw [takeFrame_eq hslot, answerHead_rl hq hlinks, takenState, hslots]
  rfl

end Sys2Proof.Machine
end

section
/-! O38: the completion of an analysis, and the claims that waited for it. -/

namespace Sys2Proof.Machine

open Sys2Proof Sys2Proof.Claims

/-! ### The order of a completion -/

theorem sendReady_eq {s : State} {k : Nat} {cur : Bool} {f : SealedFrame} {v : Verdict} {h : Nat} {o : PerRL Bool}
    (hk : s.slot k = .analysed cur f v h o) : sendReady k s =
      mapRl (fun l r => if o.get l then noticed (.ready f.source f.number v.cls v.flags) r else r) s := by
  simp only [sendReady, hk, placeNotice_eq, modRl_if, foldl_modRl]

/-- The READY notices that follow a frame's becoming CURRENT, with its chapter recorded in between. -/
theorem announced_eq {s : State} {k : Nat} {f g : SealedFrame} (hk : s.fpc.slots[k]? = some (.analysing g)) (v : Verdict) :
    announced k f v s =
      mapRl (fun l r => if (boundSet f.source s).get l then noticed (.ready f.source f.number v.cls (chaptered f v s).flags) r else r)
        { s with
          fpc := { s.fpc with
            slots := (staleSlots f.source s).set k (.analysed true f (chaptered f v s) 0 (boundSet f.source s))
            current := s.fpc.current.set f.source (some k) }
          clr := match decision f v s with
            | some r => recordChapter s.clr f v.changed v.active r
            | none => s.clr } := by
  have hslot : ∀ c : Router, State.slot { supersede f.source k f (chaptered f v s) s with clr := c } k =
      .analysed true f (chaptered f v s) 0 (boundSet f.source s) := by
    intro c
    rw [supersede_eq]
    refine slot_of_getElem? ?_
    rw [List.getElem?_set_self (List.getElem?_eq_some_iff.mp (staleSlots_analysing hk)).1]
  unfold announced
  dsimp only
  cases decision f v s with
  | none =>
    refine (sendReady_eq (hslot (supersede f.source k f (chaptered f v s) s).clr)).trans ?_
    rw [supersede_eq]
    rfl
  | some r =>
    refine (sendReady_eq (hslot _)).trans ?_
    rw [supersede_eq]
    rfl

theorem staleSlots_of_none {x : Src} {s : State} (h : s.fpc.current.get x = none) : staleSlots x s = s.fpc.slots := by
  simp only [staleSlots, h]

theorem staleSlots_of_current {x : Src} {s : State} {j : Nat} {cur : Bool} {f : SealedFrame} {v : Verdict} {h : Nat} {o : PerRL Bool}
    (hc : s.fpc.current.get x = some j) (hj : s.fpc.slots[j]? = some (.analysed cur f v h o)) :
    staleSlots x s = s.fpc.slots.set j (.analysed false f v h o) := by
  simp only [staleSlots, hc, slot_of_getElem? hj]

theorem servePendingClaims_eq (x : Src) (k : Nat) (s : State) :
    servePendingClaims x k s = [RLane.r0, .r1, .r2, .r3].foldl (fun u l => match (u.rl.get l).binding with
      | some b => if b.source = x ∧ (u.rl.get l).pendingClaim ≠ none then takeFrame l b k u else u
      | none => u) s := by
  refine congrArg (fun g => rlAll.foldl g s) (funext fun u => funext fun l => ?_)
  cases hb : (u.rl.get l).binding with
  | none => rfl
  | some b =>
    cases hp : (u.rl.get l).pendingClaim with
    | none => simp
    | some p => simp

/-! ### The claims that waited -/

/-- A lane bound to source x whose claim waits takes the frame of slot k. -/
def servePending (x : Src) (k : Nat) (u : State) (l : RLane) : State :=
  match (u.rl.get l).binding with
  | some b => if b.source = x ∧ (u.rl.get l).pendingClaim ≠ none then takeFrame l b k u else u
  | none => u

/-- The lane is bound to source x and its claim waits. -/
def Awaits (x : Src) (l : RLane) (s : State) : Prop :=
  ∃ b, (s.rl.get l).binding = some b ∧ b.source = x ∧ (s.rl.get l).pendingClaim ≠ none

/-- A slot that shows frame f with verdict v, held or not. -/
theorem shown_zero_iff {f : SealedFrame} {v : Verdict} {c : Slot} : Shown f v 0 c ↔ ∃ cur h o, c = .analysed cur f v h o := by
  simp [Shown]

theorem Taken.shown {l : RLane} {b : Binding} {k : Nat} {s t : State} {f : SealedFrame} {v : Verdict} (ht : Taken l b k s t)
    (h : Shown f v 0 (s.slot k)) : Shown f v 0 (t.slot k) := by
  obtain ⟨cur, g, w, m, o, hk, hs⟩ := ht
  have held : Shown f v 1 ((claimedState l b k g s).slot k) := by
    obtain ⟨cur', m', o', e, -⟩ := h
    rw [claimedState_slot hk, if_pos rfl, e]
    exact Shown.leaveAtMost ⟨cur', m' + 1, o', rfl, by omega⟩ l _ _
  obtain ⟨cur', m', o', e, -⟩ := held.aftermath (Nat.le_refl 1) hs.moves
  exact ⟨cur', m', o', e, Nat.zero_le _⟩

theorem Taken.sameLane {l j : RLane} (hj : j ≠ l) {b : Binding} {k : Nat} {s t : State} (ht : Taken l b k s t) : SameLane s t j := by
  obtain ⟨cur, g, w, m, o, hk, hs⟩ := ht
  exact (claimedState_other hj b k g s).trans (hs.moves.sameLane j)

/-- The lane that took the frame: its claim no longer waits, its mark is the frame's number, and it has the new hold. -/
theorem Taken.lane {l : RLane} {b : Binding} {k : Nat} {s t : State} {f : SealedFrame} {v : Verdict} (ht : Taken l b k s t)
    (h : Shown f v 0 (s.slot k)) :
    (t.rl.get l).binding = (s.rl.get l).binding ∧ (t.rl.get l).pendingClaim = none ∧ (t.rl.get l).mark = some f.number ∧
      (t.rl.get l).holds = (s.rl.get l).holds ++ [{ slot := k, frame := f.number, window := b.window }] := by
  obtain ⟨cur, g, w, m, o, hk, hs⟩ := ht
  obtain ⟨cur', m', o', e, -⟩ := h
  cases (slot_of_getElem? hk).symm.trans e
  have hl := hs.moves.sameLane l
  rw [hl.binding, hl.claim, hl.mark, hl.holds, claimedState_get]
  exact ⟨rfl, rfl, rfl, rfl⟩

theorem takeFrame_taken_of_shown {l : RLane} {b : Binding} {k : Nat} {s : State} {f : SealedFrame} {v : Verdict}
    (h : Shown f v 0 (s.slot k)) : Taken l b k s (takeFrame l b k s) := by
  obtain ⟨cur, m, o, e, -⟩ := h
  refine ⟨cur, f, v, m, o, getElem?_of_slot e (by simp), ?_⟩
  rw [takeFrame_eq e]
  refine (settle_settled _ (takenState l b k f s)).congr ?_ (pool_answerHead ..)
  simp only [claimedState, takenState, pool_modRl_eq]

theorem servePending_awaiting {x : Src} {k : Nat} {u : State} {l : RLane} {b : Binding} (hb : (u.rl.get l).binding = some b)
    (hx : b.source = x) (hp : (u.rl.get l).pendingClaim ≠ none) : servePending x k u l = takeFrame l b k u := by
  simp only [servePending, hb, hx, hp, ne_eq, not_false_eq_true, and_self, if_true]

theorem servePending_idle {x : Src} {k : Nat} {u : State} {l : RLane} (h : ¬ Awaits x l u) : servePending x k u l = u := by
  unfold servePending
  split
  · next b hb => exact if_neg fun e => h ⟨b, hb, e⟩
  · rfl

/-- What one lane's turn does: nothing, or the lane takes the frame. -/
theorem servePending_cases {x : Src} {k : Nat} {u : State} {f : SealedFrame} {v : Verdict} (hs : Shown f v 0 (u.slot k)) (l : RLane) :
    servePending x k u l = u ∨ ∃ b, Taken l b k u (servePending x k u l) := by
  by_cases h : Awaits x l u
  · obtain ⟨b, hb, hx, hp⟩ := h
    rw [servePending_awaiting hb hx hp]
    exact .inr ⟨b, takeFrame_taken_of_shown hs⟩
  · exact .inl (servePending_idle h)

/-- The turns of other lanes leave a lane's claim, mark and holds alone, and the frame stands. -/
theorem foldl_servePending {x : Src} {k : Nat} {f : SealedFrame} {v : Verdict} {lanes : List RLane} {s : State} {l : RLane}
    (hl : l ∉ lanes) (hs : Shown f v 0 (s.slot k)) :
    SameLane s (lanes.foldl (servePending x k) s) l ∧ Shown f v 0 ((lanes.foldl (servePending x k) s).slot k) := by
  induction lanes generalizing s with
  | nil => exact ⟨⟨rfl, rfl, rfl, rfl⟩, hs⟩
  | cons j lanes ih =>
    obtain ⟨hj, hl⟩ := not_or.mp (mt List.mem_cons.mpr hl)
    rw [List.foldl_cons]
    rcases servePending_cases hs j with e | ⟨b, ht⟩
    · rw [e]
      exact ih hl hs
    · obtain ⟨hsame, hshown⟩ := ih hl (ht.shown hs)
      exact ⟨(ht.sameLane hj).trans hsame, hshown⟩

theorem rlAll_split (l : RLane) : ∃ before after, rlAll = before ++ l :: after ∧ l ∉ before ∧ l ∉ after := by
  cases l with
  | r0 => exact ⟨[], [.r1, .r2, .r3], rfl, by decide, by decide⟩
  | r1 => exact ⟨[.r0], [.r2, .r3], rfl, by decide, by decide⟩
  | r2 => exact ⟨[.r0, .r1], [.r3], rfl, by decide, by decide⟩
  | r3 => exact ⟨[.r0, .r1, .r2], [], rfl, by decide, by decide⟩

/-- A lane after the pending claims is as its own turn left it, and before its turn as it was. -/
theorem servePendingClaims_lane {x : Src} {k : Nat} {s : State} {f : SealedFrame} {v : Verdict} (hs : Shown f v 0 (s.slot k))
    (l : RLane) : ∃ u, SameLane s u l ∧ Shown f v 0 (u.slot k) ∧
      SameLane (servePending x k u l) (servePendingClaims x k s) l := by
  obtain ⟨before, after, e, hb, ha⟩ := rlAll_split l
  obtain ⟨hsame, hshown⟩ := foldl_servePending (x := x) hb hs
  have hfold : servePendingClaims x k s = (before ++ l :: after).foldl (servePending x k) s := by
    rw [← e]
    exact servePendingClaims_eq x k s
  have hturn : Shown f v 0 ((servePending x k (before.foldl (servePending x k) s) l).slot k) := by
    rcases servePending_cases hshown l with e | ⟨b, ht⟩
    · rw [e]; exact hshown
    · exact ht.shown hshown
  refine ⟨before.foldl (servePending x k) s, hsame, hshown, ?_⟩
  rw [hfold, List.foldl_append, List.foldl_cons]
  exact (foldl_servePending ha hturn).1

/-! ### The completion -/

theorem completeAnalysis_of_analysing {c : AnalysisCtx} {s : State} {f : SealedFrame} (hk : s.fpc.slots[c.slot]? = some (.analysing f)) :
    completeAnalysis c s = startAnalysis (withCtx none (completeFrame c.slot f
      (verdictOf c (s.cd.first.get c.source) s.tcu.cueSettings.window s.tcu.cues).1 (analysed c s))) := by
  rw [completeAnalysis_eq, slot_of_getElem? hk]

theorem completeFrame_of_none {k : Nat} {f : SealedFrame} {v : Verdict} {s : State} (h : s.fpc.current.get f.source = none) :
    completeFrame k f v s = servePendingClaims f.source k (raised f v (decision f v s) (announced k f v s)) := by
  rw [completeFrame_eq, h]

theorem completeFrame_of_current {k j : Nat} {f : SealedFrame} {v : Verdict} {s : State} {c : Slot}
    (h : s.fpc.current.get f.source = some j) (hne : j ≠ k) (hj : s.fpc.slots[j]? = some c) :
    completeFrame k f v s =
      examineSlot c j (servePendingClaims f.source k (raised f v (decision f v s) (announced k f v s))) := by
  rw [completeFrame_eq, h, ← slot_of_getElem? hj]
  exact if_neg hne

/-- Settles O38: the completion in its order, and the claims that waited, each lane's by its own turn. -/
theorem analysisCompletion : Obligations.AnalysisCompletion := by
  refine ⟨?_, servePendingClaims_eq, ?_⟩
  · intro s c f old hk hx
    obtain ⟨y, n, p, a⟩ := f
    obtain rfl : y = c.source := hx
    cases old with
    | none =>
      intro hold x out why v owed count ready stale s1 s2 s3 s4 s5
      have h1 : announced c.slot ⟨c.source, n, p, a⟩ out.1 (analysed c s) = s1 := by
        rw [announced_eq (by exact hk), staleSlots_congr (pool_analysed ..), staleSlots_of_none hold]
        rfl
      have hframe : completeFrame c.slot ⟨c.source, n, p, a⟩ out.1 (analysed c s) = s5 := by
        rw [completeFrame_of_none (by exact hold), h1]
        rfl
      rw [completeAnalysis_of_analysing hk]
      exact congrArg (fun u => startAnalysis (withCtx none u)) hframe
    | some old =>
      obtain ⟨j, f', v', h', o'⟩ := old
      rintro ⟨hcur, hj⟩ x out why v owed count ready stale s1 s2 s3 s4 s5
      have h1 : announced c.slot ⟨c.source, n, p, a⟩ out.1 (analysed c s) = s1 := by
        rw [announced_eq (by exact hk), staleSlots_congr (pool_analysed ..), staleSlots_of_current hcur hj]
        rfl
      have hne : j ≠ c.slot := fun e => by
        rw [e, hk] at hj
        cases hj
      have hframe : completeFrame c.slot ⟨c.source, n, p, a⟩ out.1 (analysed c s) = s5 := by
        rw [completeFrame_of_current (by exact hcur) hne (by exact hj), h1]
        rfl
      rw [completeAnalysis_of_analysing hk]
      exact congrArg (fun u => startAnalysis (withCtx none u)) hframe
  · intro x k s f v h o l hk hx old new served
    obtain ⟨u, hsame, hshown, hlast⟩ :=
      servePendingClaims_lane (x := x) (k := k) (s := s) (f := f) (v := v) ⟨true, h, o, slot_of_getElem? hk, Nat.zero_le _⟩ l
    have hbind : new.binding = old.binding := by
      rcases servePending_cases (x := x) hshown l with e | ⟨b, ht⟩
      · exact hlast.binding.trans (by rw [e]; exact hsame.binding)
      · exact hlast.binding.trans ((ht.lane hshown).1.trans hsame.binding)
    refine ⟨hbind, fun b hb hbx hp => ?_, fun hn => ?_⟩
    · have hturn := servePending_awaiting (k := k) (hsame.binding.trans hb) hbx (by rw [hsame.claim]; exact hp)
      rw [hturn] at hlast
      obtain ⟨-, hclaim, hmark, hholds⟩ := (takeFrame_taken_of_shown (l := l) (b := b) hshown).lane hshown
      exact ⟨hlast.claim.trans hclaim, hlast.mark.trans hmark, hlast.holds.trans (by rw [hholds, hsame.holds])⟩
    · have hidle : ¬ Awaits x l u := by
        rintro ⟨b, hb, hbx, hp⟩
        exact hn ⟨b, hsame.binding.symm.trans hb, hbx, by rw [← hsame.claim]; exact hp⟩
      rw [servePending_idle hidle] at hlast
      exact ⟨hlast.claim.trans hsame.claim, hlast.mark.trans hsame.mark, hlast.holds.trans hsame.holds⟩

end Sys2Proof.Machine
end

section
/-! O43: cue edges, the spacing hold, the cue age, marker pulses and the two wait deadlines. -/

namespace Sys2Proof.Machine

open Sys2Proof Sys2Proof.Claims

/-! ### Cues -/

theorem atOrBefore_iff {a b : Stamp} : atOrBefore a b = true ↔ (b - a).toNat < 2147483648 := by
  simp only [atOrBefore, decide_eq_true_eq]

theorem edgeSelected_iff {g : EdgeSetting} {e : CueEdge} : edgeSelected g e = true ↔
    g = .both ∨ (g = .rising ∧ e = .rising) ∨ (g = .falling ∧ e = .falling) := by
  cases g <;> cases e <;> simp [edgeSelected]

/-- An edge is accepted when the line is enabled, no spacing hold stands, and the edge is of the kind selected (R151). -/
def EdgeAccepted (e : CueEdge) (t : Timebase) : Prop :=
  t.cueSettings.enabled = true ∧ t.spacingHold = none ∧
    (t.cueSettings.edge = .both ∨ (t.cueSettings.edge = .rising ∧ e = .rising) ∨ (t.cueSettings.edge = .falling ∧ e = .falling))

theorem edgeAccepted_iff {e : CueEdge} {t : Timebase} : EdgeAccepted e t ↔
    t.cueSettings.enabled = true ∧ edgeSelected t.cueSettings.edge e = true ∧ t.spacingHold.isNone = true := by
  rw [EdgeAccepted, edgeSelected_iff, Option.isNone_iff_eq_none, and_comm (a := t.spacingHold = none)]

theorem execCueEdge_accepted {s : State} (h : s.rstnLow = false) {e : CueEdge} (ha : EdgeAccepted e s.tcu) : execCueEdge e s =
    .next (captureCue { s with tcu := { s.tcu with spacingHold :=
      if s.tcu.cueSettings.spacing = 0 then none else some (later s.tcu.time (s.tcu.cueSettings.spacing * 1000)) } }) := by
  rw [execCueEdge, running_of_high h]
  exact if_pos (edgeAccepted_iff.mp ha)

theorem execCueEdge_other {s : State} (h : s.rstnLow = false) {e : CueEdge} (ha : ¬ EdgeAccepted e s.tcu) :
    execCueEdge e s = .next s := by
  rw [execCueEdge, running_of_high h]
  exact if_neg (mt edgeAccepted_iff.mpr ha)

theorem execSpacingHoldEnd_eq {s : State} (h : s.rstnLow = false) : execSpacingHoldEnd s = .next { s with tcu := { s.tcu with
    spacingHold := match s.tcu.spacingHold with
      | some t => if (s.tcu.time - t).toNat < 2147483648 then none else some t
      | none => none } } := by
  have keep : ∀ d, s.tcu.spacingHold = d → ({ s with tcu := { s.tcu with spacingHold := d } } : State) = s := fun d e => by rw [← e]
  rw [execSpacingHoldEnd, running_of_high h]
  cases hd : s.tcu.spacingHold with
  | none =>
    dsimp only
    rw [keep none hd]
  | some t =>
    dsimp only
    by_cases ht : (s.tcu.time - t).toNat < 2147483648
    · rw [if_pos (atOrBefore_iff.mpr ht), if_pos ht]
    · rw [if_neg (mt atOrBefore_iff.mp ht), if_neg ht, keep _ hd]

/-- The first record that has reached its age leaves. -/
theorem execCueAgeExpiry_first {s : State} (h : s.rstnLow = false) {before after : List CueRec} {q : CueRec}
    (hc : s.tcu.cues = before ++ q :: after) (hb : before.any (cueAged s.tcu.time) = false) (hq : cueAged s.tcu.time q = true) :
    execCueAgeExpiry s = .next (({ s with tcu := { s.tcu with cues := before ++ after } } : State).modCounters q.target
      fun c => { c with cueMisses := satAdd c.cueMisses 1 }) := by
  have hbefore : ∀ b, b ∈ before → ¬ cueAged s.tcu.time b = true := fun b hmem e => by
    rw [List.any_eq_false] at hb
    exact hb b hmem e
  have hfind : s.tcu.cues.find? (cueAged s.tcu.time) = some q :=
    List.find?_eq_some_iff_append.mpr ⟨hq, before, after, hc, fun b hmem => by simpa using hbefore b hmem⟩
  have herase : s.tcu.cues.eraseP (cueAged s.tcu.time) = before ++ after := by
    rw [hc, List.eraseP_append_right _ hbefore, List.eraseP_cons_of_pos hq]
  rw [execCueAgeExpiry, running_of_high h]
  simp only [hfind, herase]

theorem execCueAgeExpiry_none {s : State} (h : s.rstnLow = false) (hc : s.tcu.cues.any (cueAged s.tcu.time) = false) :
    execCueAgeExpiry s = .next s := by
  have hfind : s.tcu.cues.find? (cueAged s.tcu.time) = none := by
    rw [List.find?_eq_none]
    exact List.any_eq_false.mp hc
  rw [execCueAgeExpiry, running_of_high h]
  simp only [hfind]

/-! ### Marker pulses -/

theorem endPulse_eq (now : Stamp) (m : MarkerLine) : endPulse now m = { m with
    high := match m.high with
      | some t => if (now - t).toNat < 2147483648 then none else some t
      | none => none } := by
  obtain ⟨enabled, width, high⟩ := m
  cases high with
  | none => rfl
  | some t =>
    by_cases ht : (now - t).toNat < 2147483648
    · exact (if_pos (atOrBefore_iff.mpr ht)).trans (congrArg (MarkerLine.mk enabled width) (if_pos ht).symm)
    · exact (if_neg (mt atOrBefore_iff.mp ht)).trans (congrArg (MarkerLine.mk enabled width) (if_neg ht).symm)

theorem execMarkerPulseEnd_eq {s : State} (h : s.rstnLow = false) (pin : MarkerPin) : execMarkerPulseEnd pin s =
    .next { s with clr := match pin with
      | .m0 => { s.clr with m0 := endPulse s.tcu.time s.clr.m0 }
      | .m1 => { s.clr with m1 := endPulse s.tcu.time s.clr.m1 } } := by
  cases pin with
  | m0 => exact running_of_high h _
  | m1 => exact running_of_high h _

/-! ### The wait deadlines -/

theorem execOpenWaitDeadline_none {s : State} (h : s.rstnLow = false) {x : Src} (hp : (s.il.get x).pendingOpen = none) :
    execOpenWaitDeadline x s = .next s := by
  rw [execOpenWaitDeadline, running_of_high h]
  simp only [hp]

theorem execClaimWaitDeadline_none {s : State} (h : s.rstnLow = false) {l : RLane} (hp : (s.rl.get l).pendingClaim = none) :
    execClaimWaitDeadline l s = .next s := by
  rw [execClaimWaitDeadline, running_of_high h]
  simp only [hp]

theorem execOpenWaitDeadline_eq {s : State} (h : s.rstnLow = false) {x : Src} {p : PendingOpen}
    (hp : (s.il.get x).pendingOpen = some p) : execOpenWaitDeadline x s =
      if (s.tcu.time - p.deadline).toNat < 2147483648 then
        .next (answerHead (.il x) .poolFull [] ((dropWait x s).modCounters x fun c => { c with drops := satAdd c.drops 1 }))
      else .next s := by
  rw [execOpenWaitDeadline, running_of_high h]
  simp only [hp, atOrBefore, decide_eq_true_eq]
  rfl

theorem execClaimWaitDeadline_eq {s : State} (h : s.rstnLow = false) {l : RLane} {p : PendingClaim}
    (hp : (s.rl.get l).pendingClaim = some p) : execClaimWaitDeadline l s =
      if (s.tcu.time - p.deadline).toNat < 2147483648 then
        .next (answerHead (.rl l) .noFrame [] (s.modRl l fun r => { r with pendingClaim := none }))
      else .next s := by
  rw [execClaimWaitDeadline, running_of_high h]
  simp only [hp, atOrBefore, decide_eq_true_eq]

/-- Settles O43: each event by its own equation. -/
theorem cuesPulsesAndDeadlines : Obligations.CuesPulsesAndDeadlines := by
  refine ⟨fun s h => ⟨?_, ?_, ?_, ?_⟩, fun s h => ⟨?_, ?_, ?_, ?_, ?_, ?_⟩⟩
  · intro e q accepted hold cue
    by_cases ha : accepted
    · rw [if_neg (not_not.mpr ha)]
      refine (execCueEdge_accepted h ha).trans ?_
      by_cases hl : s.tcu.cues.length < 8
      · rw [if_pos hl]
        exact congrArg Host.Outcome.next (if_pos hl)
      · rw [if_neg hl]
        exact congrArg Host.Outcome.next (if_neg hl)
    · rw [if_pos ha]
      exact execCueEdge_other h ha
  · exact execSpacingHoldEnd_eq h
  · intro aged
    have haged : aged = cueAged s.tcu.time := rfl
    rw [haged]
    exact ⟨execCueAgeExpiry_none h, fun before q after => execCueAgeExpiry_first h⟩
  · intro ended
    have hended : ∀ m, ended m = endPulse s.tcu.time m := fun m => (endPulse_eq s.tcu.time m).symm
    rw [hended, hended]
    exact ⟨execMarkerPulseEnd_eq h .m0, execMarkerPulseEnd_eq h .m1⟩
  · intro x p r rest hp hq hd
    refine (execOpenWaitDeadline_eq h hp).trans ((if_pos hd).trans (congrArg Host.Outcome.next ?_))
    exact answerHead_eq_reply (by
      show (((s.il.set x { s.il.get x with pendingOpen := none }).get x).link).queue = _
      rw [PerSource.get_set_self]
      exact hq) ..
  · exact fun x p hp hd => (execOpenWaitDeadline_eq h hp).trans (if_neg (by omega))
  · exact fun x hp => execOpenWaitDeadline_none h hp
  · intro l p r rest hp hq hd
    refine (execClaimWaitDeadline_eq h hp).trans ((if_pos hd).trans (congrArg Host.Outcome.next ?_))
    exact answerHead_rl hq (rlLinks_modRl rfl) ..
  · exact fun l p hp hd => (execClaimWaitDeadline_eq h hp).trans (if_neg (by omega))
  · exact fun l hp => execClaimWaitDeadline_none h hp

end Sys2Proof.Machine
end

section
/-! The management frame of a command's row, and O44: SET_PLAN. -/

namespace Sys2Proof.Machine

open Sys2Proof Sys2Proof.Claims

/-! ### A command's row -/

/-- The bytes of a command's frame (R186). -/
def frameBytes (code : Byte) (p : List Byte) : List Byte := code :: BitVec.ofNat 8 p.length :: p

/-- The part when the last byte of a command's frame is in, before the execution (R187). -/
def framed (code : Byte) (p : List Byte) (s : State) : State :=
  { s with mlu := { s.mlu with csnLow := true, staging := frameBytes code p, frame := .receiving, result := none, sent := [] } }

theorem takeCommand_framed {s : State} (h : s.rstnLow = false) (code : Byte) (p : List Byte) :
    takeCommand code p s = .next (closeFrame (frameBytes code p) (commandReply code p (framed code p s))) := by
  rw [takeCommand_eq code p h, newFrame_eq]
  rfl

/-- A command refused leaves the frame executed with its code. -/
theorem takeCommand_refused {s : State} (h : s.rstnLow = false) {code : Byte} {p : List Byte} {c : AnswerCode}
    (hr : commandReply code p (framed code p s) = refuse c (framed code p s)) :
    takeCommand code p s = .next (executed code p c [] s) := by
  rw [takeCommand_framed h, hr]
  rfl

/-- A command done leaves the frame executed over what it did, given that the frame is no part of that. -/
theorem takeCommand_done {s : State} (h : s.rstnLow = false) {code : Byte} {p data : List Byte} {t u : State}
    (hr : commandReply code p (framed code p s) = done data u)
    (hu : closeFrame (frameBytes code p) (done data u) = executed code p .ok data t) :
    takeCommand code p s = .next (executed code p .ok data t) := by
  rw [takeCommand_framed h, hr, hu]

theorem ofLength_of_eq {n : Nat} {p : List Byte} (h : p.length = n) (r : Reply) (s : State) : ofLength n p r s = r := if_pos h

/-! ### Costs and caps -/

theorem ingestRowCost_eq (c : Nat) : ingestRowCost c = 2 + 24 * c := by
  simp only [ingestRowCost, ceilDiv]
  omega

theorem detectorRowCost_eq (c : Nat) : detectorRowCost c = 2 + 16 * c := by
  simp only [detectorRowCost, ceilDiv]
  omega

theorem mem_srcAll (x : Src) : x ∈ srcAll := by cases x <;> decide
theorem mem_rlAll (l : RLane) : l ∈ rlAll := by cases l <;> decide
theorem mem_laneAll (lane : Lane) : lane ∈ laneAll := by
  cases lane with
  | il x => cases x <;> decide
  | rl l => cases l <;> decide

theorem capsHonour_iff {a : PerReq Nat} {p : Plan} : capsHonour a p = true ↔ ∀ x, (p.source.get x).enabled = true →
    2 + 24 * (p.source.get x).cols ≤ 2 * a.get (.il x) ∧ 2 + 16 * (p.source.get x).cols ≤ 2 * a.get .det := by
  simp only [capsHonour, List.all_eq_true, mem_srcAll, true_imp_iff, Bool.or_eq_true, Bool.and_eq_true, decide_eq_true_eq,
    Bool.not_eq_true', ingestRowCost_eq, detectorRowCost_eq, capOf]
  refine forall_congr' fun x => ?_
  cases (p.source.get x).enabled with
  | false => simp
  | true => simp only [Bool.true_eq_false, false_or, true_imp_iff]; rfl

/-- The pool is idle: every slot FREE, no open and no claim waiting, and no request in any lane (R3). -/
theorem poolIdle_iff {s : State} : poolIdle s = true ↔
    (∀ c, c ∈ s.fpc.slots → c = .free) ∧ s.fpc.waitList = [] ∧ (∀ l, (s.rl.get l).pendingClaim = none) ∧
      ∀ lane, (s.link lane).queue = [] := by
  simp only [poolIdle, Bool.and_eq_true, List.all_eq_true, Bool.not_eq_true', slotUsed_eq_false, List.isEmpty_iff,
    Option.isNone_iff_eq_none, mem_rlAll, mem_laneAll, true_imp_iff, and_assoc]

/-! ### SET_PLAN -/

/-- One source's part of a plan is valid for S slots (R1, R2). -/
theorem sourcePlanValid_iff {S : Nat} {q : SourcePlan} : sourcePlanValid S q = true ↔
    (q.enabled = true → 1 ≤ q.cols ∧ q.cols ≤ 32 ∧ 1 ≤ q.rows ∧ q.rows ≤ 20 ∧ 3 ≤ q.quota ∧ q.quota ≤ S) := by
  simp only [sourcePlanValid, Bool.or_eq_true, Bool.not_eq_true', decide_eq_true_eq]
  cases q.enabled <;> simp

theorem planValid_iff {p : Plan} {m : Scheduler} : planValid p m = true ↔
    6 ≤ p.slots ∧ p.slots ≤ 32 ∧ (p.source.s0.enabled = true ∨ p.source.s1.enabled = true) ∧
      (∀ x, sourcePlanValid p.slots (p.source.get x) = true) ∧ capsHonour m.schedule.allowance p = true ∧
      ∀ c, m.pendingSchedule = some c → capsHonour c.allowance p = true := by
  have hany : srcAll.any (fun x => (p.source.get x).enabled) = true ↔ p.source.s0.enabled = true ∨ p.source.s1.enabled = true := by
    simp [srcAll, PerSource.get]
  unfold planValid
  cases m.pendingSchedule <;>
    simp only [Bool.and_eq_true, decide_eq_true_eq, hany, List.all_eq_true, mem_srcAll, true_imp_iff, and_assoc, Option.some.injEq,
      forall_eq', reduceCtorEq, false_imp_iff, implies_true]

/-- One source's four bytes of a plan (R189). -/
theorem sourcePlan_bytes (e c r q : Byte) :
    ({ enabled := decide (beNat [e] ≠ 0), cols := beNat [c], rows := beNat [r],
       quota := if decide (beNat [e] ≠ 0) = true then beNat [q] else 0 } : SourcePlan) =
      { enabled := decide (e ≠ 0), cols := c.toNat, rows := r.toNat, quota := if e ≠ 0 then q.toNat else 0 } := by
  simp only [beNat_single, toNat_ne_zero_iff, decide_eq_true_eq]

theorem replySetPlan_invalid {p : List Byte} {s : State} (h : ¬ planValid (planOf p) s.ms = true) :
    replySetPlan p s = refuse .badArg s := if_pos (by simpa using h)

theorem replySetPlan_busy {p : List Byte} {s : State} (h : planValid (planOf p) s.ms = true) (hi : ¬ poolIdle s = true) :
    replySetPlan p s = refuse .busy s := (if_neg (by simpa using h)).trans (if_pos (by simpa using hi))

theorem replySetPlan_taken {p : List Byte} {s : State} (h : planValid (planOf p) s.ms = true) (hi : poolIdle s = true) :
    replySetPlan p s = done [] (takePlan (planOf p) s) := (if_neg (by simpa using h)).trans (if_neg (by simpa using hi))

/-- Settles O44: an invalid plan, a pool that is not idle, and a plan taken. -/
theorem setPlanMeaning : Obligations.SetPlanMeaning := by
  intro s n e0 c0 r0 q0 e1 c1 r1 q1 h payload part plan inRange within valid idle
  have hplan : planOf payload = plan := by
    show Plan.mk (beNat [n]) ⟨_, _⟩ = _
    rw [beNat_single]
    exact congrArg₂ (fun a b => Plan.mk n.toNat ⟨a, b⟩) (sourcePlan_bytes e0 c0 r0 q0) (sourcePlan_bytes e1 c1 r1 q1)
  have hvalid : planValid (planOf payload) s.ms = true ↔ valid := by
    rw [hplan, planValid_iff]
    simp only [sourcePlanValid_iff, capsHonour_iff]
    simp only [valid, inRange, within, plan, part, decide_eq_true_eq]
  have hidle : poolIdle s = true ↔ idle := poolIdle_iff
  have hreply : commandReply 1 payload (framed 1 payload s) = replySetPlan payload (framed 1 payload s) := ofLength_of_eq rfl _ _
  refine ⟨fun hv => ?_, fun hv hi => ?_, fun hv hi => ?_⟩
  · exact takeCommand_refused h (hreply.trans (replySetPlan_invalid (mt hvalid.mp hv)))
  · exact takeCommand_refused h (hreply.trans (replySetPlan_busy (hvalid.mpr hv) (mt hidle.mp hi)))
  · refine takeCommand_done h (hreply.trans (replySetPlan_taken (hvalid.mpr hv) (hidle.mpr hi))) ?_
    rw [hplan]
    rfl

end Sys2Proof.Machine
end

section
/-! O46: SET_SCHEDULE, SET_ROUTE and SET_LANE_LIMITS. -/

namespace Sys2Proof.Machine

open Sys2Proof Sys2Proof.Claims

/-! ### Codes -/

theorem srcOf_toNat (b : Byte) : srcOf b.toNat = source b :=
  (congrArg srcOf (beNat_single b)).symm.trans (srcOf_byte b)

theorem priorityOf_toNat (b : Byte) : priorityOf b.toNat =
    if b = 0 then some (some .r0) else if b = 1 then some (some .r1) else if b = 2 then some (some .r2)
    else if b = 3 then some (some .r3) else if b = 255 then some none else none := by
  have h0 : b = 0 ↔ b.toNat = 0 := by bv_omega
  have h1 : b = 1 ↔ b.toNat = 1 := by bv_omega
  have h2 : b = 2 ↔ b.toNat = 2 := by bv_omega
  have h3 : b = 3 ↔ b.toNat = 3 := by bv_omega
  have h255 : b = 255 ↔ b.toNat = 255 := by bv_omega
  simp only [h0, h1, h2, h3, h255]
  unfold priorityOf
  split <;> simp_all

theorem generatorOf_toNat (g b : Byte) : generatorOf g.toNat b.toNat =
    if g = 0 then (source b).map Generator.scene else if g = 1 then (source b).map Generator.chapter
    else if g = 2 then (source b).map Generator.stalled else if g = 3 then some Generator.cue
    else if g = 4 then (source b).map Generator.evict else if g = 5 then some Generator.poolLow
    else if g = 255 then some Generator.off else none := by
  have h0 : g = 0 ↔ g.toNat = 0 := by bv_omega
  have h1 : g = 1 ↔ g.toNat = 1 := by bv_omega
  have h2 : g = 2 ↔ g.toNat = 2 := by bv_omega
  have h3 : g = 3 ↔ g.toNat = 3 := by bv_omega
  have h4 : g = 4 ↔ g.toNat = 4 := by bv_omega
  have h5 : g = 5 ↔ g.toNat = 5 := by bv_omega
  have h255 : g = 255 ↔ g.toNat = 255 := by bv_omega
  simp only [h0, h1, h2, h3, h4, h5, h255, ← srcOf_toNat]
  unfold generatorOf
  split <;> simp_all

/-! ### SET_SCHEDULE -/

theorem bandCost_eq (w : Window) : bandCost w = 2 + (w.w * 8 * w.d * 3 / 2 + 255) / 256 := by
  simp only [bandCost, ceilDiv]
  omega

theorem foldl_max_le {xs : List Nat} {b n : Nat} : xs.foldl max b ≤ n ↔ b ≤ n ∧ ∀ x, x ∈ xs → x ≤ n := by
  induction xs generalizing b with
  | nil => simp
  | cons a xs ih =>
    rw [List.foldl_cons, ih]
    simp only [max_le_iff, List.forall_mem_cons, and_assoc]

/-- The largest band cost is within a cap when the bound window's and every latched window's is (R93). -/
theorem largestBandCost_le {r : RenditionLane} {n : Nat} : largestBandCost r ≤ n ↔
    ∀ w, ((∃ b, r.binding = some b ∧ b.window = w) ∨ ∃ e, e ∈ r.holds ∧ e.window = w) →
      2 + (w.w * 8 * w.d * 3 / 2 + 255) / 256 ≤ n := by
  have hbound : ∀ b, r.binding = some b → (largestBandCost r = (r.holds.map fun h => bandCost h.window).foldl max (bandCost b.window)) :=
    fun b hb => by simp only [largestBandCost, hb]
  have hfree : r.binding = none → largestBandCost r = (r.holds.map fun h => bandCost h.window).foldl max 0 :=
    fun hb => by simp only [largestBandCost, hb]
  cases hb : r.binding with
  | none =>
    rw [hfree hb, foldl_max_le]
    simp [bandCost_eq]
  | some b =>
    rw [hbound b hb, foldl_max_le]
    simp [bandCost_eq, or_imp, forall_and]

theorem scheduleValid_iff {a : PerReq Nat} {s : State} : scheduleValid a s = true ↔
    a.sum ≤ 12000 ∧ (∀ p, s.fpc.plan = some p → capsHonour a p = true) ∧ ∀ l, largestBandCost (s.rl.get l) ≤ 2 * a.get (.rl l) := by
  unfold scheduleValid
  cases s.fpc.plan <;>
    simp only [Bool.and_eq_true, decide_eq_true_eq, List.all_eq_true, mem_rlAll, true_imp_iff, and_assoc, Option.some.injEq,
      forall_eq', reduceCtorEq, false_imp_iff, implies_true, true_and] <;> rfl

theorem allowanceOf_bytes (a1 a0 b1 b0 d1 d0 f1 f0 g1 g0 h1 h0 i1 i0 code : Byte) :
    allowanceOf [a1, a0, b1, b0, d1, d0, f1, f0, g1, g0, h1, h0, i1, i0, code] =
      ⟨⟨two a1 a0, two b1 b0⟩, two d1 d0, ⟨two f1 f0, two g1 g0, two h1 h0, two i1 i0⟩⟩ := by
  show (⟨⟨beNat [a1, a0], beNat [b1, b0]⟩, beNat [d1, d0], ⟨beNat [f1, f0], beNat [g1, g0], beNat [h1, h0], beNat [i1, i0]⟩⟩ : PerReq Nat) = _
  simp only [beNat_pair]

theorem replySetSchedule_code {p : List Byte} {s : State} (h : priorityOf (field p 14 1) = none) :
    replySetSchedule p s = refuse .badArg s := by
  simp only [replySetSchedule, h]

theorem replySetSchedule_eq {p : List Byte} {s : State} {q : Option RLane} (h : priorityOf (field p 14 1) = some q) :
    replySetSchedule p s = if scheduleValid (allowanceOf p) s = true then
      done [] { s with ms := { s.ms with pendingSchedule := some { allowance := allowanceOf p, priority := q } } }
    else refuse .badArg s := by
  simp only [replySetSchedule, h]

/-! ### SET_ROUTE -/

theorem generatorsOf_bytes (g0 x0 g1 x1 g2 x2 g3 x3 g4 x4 g5 x5 m e0 w0 e1 w1 : Byte) :
    generatorsOf [g0, x0, g1, x1, g2, x2, g3, x3, g4, x4, g5, x5, m, e0, w0, e1, w1] =
      (generatorOf g0.toNat x0.toNat).bind fun k0 => (generatorOf g1.toNat x1.toNat).bind fun k1 =>
      (generatorOf g2.toNat x2.toNat).bind fun k2 => (generatorOf g3.toNat x3.toNat).bind fun k3 =>
      (generatorOf g4.toNat x4.toNat).bind fun k4 => (generatorOf g5.toNat x5.toNat).bind fun k5 =>
      some [k0, k1, k2, k3, k4, k5] := by
  show [0, 1, 2, 3, 4, 5].mapM _ = _
  simp only [List.mapM_cons, List.mapM_nil, bind_assoc, pure_bind, ← beNat_single]
  rfl

theorem setLine_bytes (e w : Byte) (old : MarkerLine) : setLine (decide (beNat [e] ≠ 0)) (beNat [w]) old =
    { enabled := decide (e ≠ 0), width := if w = 0 then 1 else w.toNat, high := if e ≠ 0 then old.high else none } := by
  have hw : max 1 w.toNat = if w = 0 then 1 else w.toNat := by
    split
    · next e => rw [e]; rfl
    · next hne =>
      have := toNat_ne_zero_iff.mpr hne
      omega
  simp only [setLine, beNat_single, toNat_ne_zero_iff, hw, decide_eq_true_eq]

theorem replySetRoute_refused {p : List Byte} {s : State} (h : generatorsOf p = none) : replySetRoute p s = refuse .badArg s := by
  simp only [replySetRoute, h]

theorem replySetRoute_done {p : List Byte} {s : State} {gs : List Generator} (h : generatorsOf p = some gs) :
    replySetRoute p s = done [] { s with clr := { s.clr with
      generators := gs
      mgmtSubs := BitVec.ofNat 6 (field p 12 1)
      m0 := setLine (flagAt p 13) (field p 14 1) s.clr.m0
      m1 := setLine (flagAt p 15) (field p 16 1) s.clr.m1 } } := by
  simp only [replySetRoute, h]

/-! ### SET_LANE_LIMITS -/

theorem replySetLaneLimits_eq (p : List Byte) (s : State) : replySetLaneLimits p s = done [] { s with
    il := ⟨{ s.il.s0 with openLimit := field p 0 1 }, { s.il.s1 with openLimit := field p 1 1 }⟩
    rl := ⟨{ s.rl.r0 with claimLimit := field p 2 1 }, { s.rl.r1 with claimLimit := field p 3 1 },
      { s.rl.r2 with claimLimit := field p 4 1 }, { s.rl.r3 with claimLimit := field p 5 1 }⟩
    fpc := { s.fpc with poolLow := min (field p 6 1) 32 } } := by
  simp only [replySetLaneLimits, State.modIl, State.modRl, PerSource.set, PerSource.get, PerRL.set, PerRL.get]

end Sys2Proof.Machine
end

section
/-! O46: what SET_SCHEDULE, SET_ROUTE and SET_LANE_LIMITS answer and change. -/

namespace Sys2Proof.Machine

open Sys2Proof Sys2Proof.Claims

/-- Settles O46: the three commands, each with its checks and the settings it replaces. -/
theorem partSettingsCommands : Obligations.PartSettingsCommands := by
  intro s h
  refine ⟨?_, ?_, ?_⟩
  · intro a1 a0 b1 b0 d1 d0 f1 f0 g1 g0 h1 h0 i1 i0 code payload a priority passes
    have hreply : commandReply 3 payload (framed 3 payload s) = replySetSchedule payload (framed 3 payload s) := ofLength_of_eq rfl _ _
    have hcode : priorityOf (field payload 14 1) = priority :=
      (congrArg priorityOf (beNat_single code)).trans (priorityOf_toNat code)
    have ha : allowanceOf payload = a := allowanceOf_bytes ..
    have hvalid : scheduleValid a (framed 3 payload s) = true ↔ passes := by
      rw [scheduleValid_iff]
      simp only [capsHonour_iff, largestBandCost_le]
      exact and_congr Iff.rfl (and_congr ⟨fun e p x hp => e p hp x, fun e p hp x => e p x hp⟩ Iff.rfl)
    have hset : ∀ q, priority = some q → replySetSchedule payload (framed 3 payload s) =
        if scheduleValid a (framed 3 payload s) = true then done [] { framed 3 payload s with
          ms := { s.ms with pendingSchedule := some { allowance := a, priority := q } } }
        else refuse .badArg (framed 3 payload s) := fun q hq => by
      rw [replySetSchedule_eq (hcode.trans hq), ha]
      rfl
    refine ⟨?_, fun p hp hv => takeCommand_done h (hreply.trans ((hset p hp).trans (if_pos (hvalid.mpr hv)))) rfl⟩
    rintro (hn | hv)
    · exact takeCommand_refused h (hreply.trans (replySetSchedule_code (hcode.trans hn)))
    · cases hp : priority with
      | none => exact takeCommand_refused h (hreply.trans (replySetSchedule_code (hcode.trans hp)))
      | some q => exact takeCommand_refused h (hreply.trans ((hset q hp).trans (if_neg (mt hvalid.mp hv))))
  · intro g0 x0 g1 x1 g2 x2 g3 x3 g4 x4 g5 x5 m e0 w0 e1 w1 payload gen line
    have hg : generatorsOf payload = (gen g0 x0).bind fun k0 => (gen g1 x1).bind fun k1 => (gen g2 x2).bind fun k2 =>
        (gen g3 x3).bind fun k3 => (gen g4 x4).bind fun k4 => (gen g5 x5).bind fun k5 => some [k0, k1, k2, k3, k4, k5] := by
      rw [generatorsOf_bytes]
      simp only [generatorOf_toNat]
      rfl
    have hm : BitVec.ofNat 6 (field payload 12 1) = m.extractLsb' 0 6 := ofNat_byte_eq_extract m
    have h0 : setLine (flagAt payload 13) (field payload 14 1) s.clr.m0 = line e0 w0 s.clr.m0 := setLine_bytes e0 w0 s.clr.m0
    have h1 : setLine (flagAt payload 15) (field payload 16 1) s.clr.m1 = line e1 w1 s.clr.m1 := setLine_bytes e1 w1 s.clr.m1
    have hroute : exec (.setRoute payload) s = match generatorsOf payload with
        | some gs => .next (executed 4 payload .ok [] { s with clr := { s.clr with
            generators := gs
            mgmtSubs := m.extractLsb' 0 6
            m0 := line e0 w0 s.clr.m0
            m1 := line e1 w1 s.clr.m1 } })
        | none => .next (executed 4 payload .badArg [] s) := by
      cases hgs : generatorsOf payload with
      | none => exact takeCommand_refused h ((ofLength_of_eq rfl _ _).trans (replySetRoute_refused hgs))
      | some gs =>
        rw [← hm, ← h0, ← h1]
        exact takeCommand_done h ((ofLength_of_eq rfl _ _).trans (replySetRoute_done hgs)) rfl
    rw [hroute, hg]
    rcases gen g0 x0 with _ | k0
    · rfl
    rcases gen g1 x1 with _ | k1
    · rfl
    rcases gen g2 x2 with _ | k2
    · rfl
    rcases gen g3 x3 with _ | k3
    · rfl
    rcases gen g4 x4 with _ | k4
    · rfl
    rcases gen g5 x5 with _ | k5
    · rfl
    rfl
  · intro i0 i1 k0 k1 k2 k3 low payload il rl
    have hlow : min (field payload 6 1) 32 = if 32 < low.toNat then 32 else low.toNat := by
      rw [show field payload 6 1 = low.toNat from beNat_single low]
      split <;> omega
    have hi0 : field payload 0 1 = i0.toNat := beNat_single i0
    have hi1 : field payload 1 1 = i1.toNat := beNat_single i1
    have hk0 : field payload 2 1 = k0.toNat := beNat_single k0
    have hk1 : field payload 3 1 = k1.toNat := beNat_single k1
    have hk2 : field payload 4 1 = k2.toNat := beNat_single k2
    have hk3 : field payload 5 1 = k3.toNat := beNat_single k3
    refine takeCommand_done h ((ofLength_of_eq rfl _ _).trans (replySetLaneLimits_eq ..)) ?_
    rw [hlow, hi0, hi1, hk0, hk1, hk2, hk3]
    rfl

end Sys2Proof.Machine
end

section
/-! O49: what the read-out commands return. -/

namespace Sys2Proof.Machine

open Sys2Proof Sys2Proof.Claims

/-! ### READ_STATUS -/

theorem beBytes_one (n : Nat) : beBytes 1 n = [BitVec.ofNat 8 n] := rfl

/-- The blocks of a list of equal length, laid end to end, are read back by their place. -/
theorem block_of_flatten {α β : Type} {f : Nat → α → List β} {n : Nat} (hf : ∀ i a, (f i a).length = n) {xs : List α} {i : Nat} {a : α}
    (h : xs[i]? = some a) : ((xs.mapIdx f).flatten.drop (n * i)).take n = f i a := by
  induction xs generalizing f i with
  | nil => cases h
  | cons b xs ih =>
    rw [List.mapIdx_cons, List.flatten_cons]
    cases i with
    | zero =>
      cases h
      rw [Nat.mul_zero, List.drop_zero, List.take_left' (hf 0 a)]
    | succ i =>
      have hlen : n * (i + 1) = (f 0 b).length + n * i := by rw [hf, Nat.mul_succ, Nat.add_comm]
      rw [hlen, List.drop_append, List.drop_eq_nil_of_le (Nat.le_add_right ..), Nat.add_sub_cancel_left, List.nil_append]
      exact ih (f := fun i => f (i + 1)) (fun i a => hf (i + 1) a) h

theorem length_flatten_blocks {α β : Type} {f : Nat → α → List β} {n : Nat} (hf : ∀ i a, (f i a).length = n) (xs : List α) :
    ((xs.mapIdx f).flatten).length = n * xs.length := by
  induction xs generalizing f with
  | nil => rfl
  | cons b xs ih =>
    rw [List.mapIdx_cons, List.flatten_cons, List.length_append, hf, ih (fun i a => hf (i + 1) a), List.length_cons, Nat.mul_succ,
      Nat.add_comm]

theorem statusSlot_length (i : Nat) (c : Slot) : (statusSlot i c).length = 8 := rfl

/-- The first 13 bytes of READ_STATUS (R191). -/
def statusHead (s : State) : List Byte :=
  beBytes 1 (poolStateNum s) ++ beBytes 1 s.fpc.slots.length ++ beBytes 1 (linkBits s) ++ statusSource s .s0 ++ statusSource s .s1

theorem statusHead_length (s : State) : (statusHead s).length = 13 := rfl

theorem statusBytes_eq (s : State) : statusBytes s = statusHead s ++ (s.fpc.slots.mapIdx statusSlot).flatten := rfl

theorem six_bits : ∀ b₀ b₁ b₂ b₃ b₄ b₅ : Bool,
    let n := BitVec.ofNat 8 (0 + bit b₀ * 2 ^ 0 + bit b₁ * 2 ^ 1 + bit b₂ * 2 ^ 2 + bit b₃ * 2 ^ 3 + bit b₄ * 2 ^ 4 + bit b₅ * 2 ^ 5)
    n.getLsbD 0 = b₀ ∧ n.getLsbD 1 = b₁ ∧ n.getLsbD 2 = b₂ ∧ n.getLsbD 3 = b₃ ∧ n.getLsbD 4 = b₄ ∧ n.getLsbD 5 = b₅ := by
  decide

/-- Bit n of the link states is lane n's (R191). -/
theorem linkBits_getLsbD (s : State) (lane : Lane) : (BitVec.ofNat 8 (linkBits s)).getLsbD (laneNum lane) = (s.link lane).up := by
  obtain ⟨h0, h1, h2, h3, h4, h5⟩ := six_bits (s.link (.il .s0)).up (s.link (.il .s1)).up (s.link (.rl .r0)).up (s.link (.rl .r1)).up
    (s.link (.rl .r2)).up (s.link (.rl .r3)).up
  cases lane with
  | il x =>
    cases x with
    | s0 => exact h0
    | s1 => exact h1
  | rl l =>
    cases l with
    | r0 => exact h2
    | r1 => exact h3
    | r2 => exact h4
    | r3 => exact h5

theorem statusSource_eq (s : State) (x : Src) : statusSource s x =
    (let current := (s.currentFrame x).map SealedFrame.number
    BitVec.ofNat 8 ((if current.isSome then 1 else 0) + (if (s.tcu.cadence.get x).stalled then 2 else 0)) ::
      beBytes 4 ((current.map BitVec.toNat).getD 0)) := by
  have hbit : 2 * bit (s.tcu.cadence.get x).stalled = if (s.tcu.cadence.get x).stalled then 2 else 0 := by
    cases (s.tcu.cadence.get x).stalled <;> rfl
  unfold statusSource
  rw [hbit]
  rfl

theorem statusSlot_eq (i : Nat) (c : Slot) : statusSlot i c =
    [BitVec.ofNat 8 i, BitVec.ofNat 8 (slotStateNum (slotState c)),
      match slotSource c with
      | some x => BitVec.ofNat 8 (srcNum x)
      | none => 255] ++ beBytes 4 (((slotFrame c).map BitVec.toNat).getD 0) ++
    [BitVec.ofNat 8 (slotHolds c + 16 * owedBits (slotOwed c))] := by
  have hsrc : BitVec.ofNat 8 (srcByte (slotSource c)) = match slotSource c with
      | some x => BitVec.ofNat 8 (srcNum x)
      | none => 255 := by
    cases slotSource c <;> rfl
  rw [← hsrc]
  rfl

theorem statusBytes_slot {s : State} {i : Nat} {c : Slot} (h : s.fpc.slots[i]? = some c) :
    ((statusBytes s).drop (13 + 8 * i)).take 8 = statusSlot i c := by
  rw [statusBytes_eq, List.drop_append, List.drop_eq_nil_of_le (by rw [statusHead_length]; omega), statusHead_length,
    Nat.add_sub_cancel_left, List.nil_append, block_of_flatten statusSlot_length h]

/-! ### The counters and the attributes -/

theorem flatMap_beBytes_one {α : Type} (f : α → Nat) (xs : List α) :
    (xs.flatMap fun a => beBytes 1 (f a)) = xs.map fun a => BitVec.ofNat 8 (f a) := (List.map_eq_flatMap ..).symm

theorem attrNum_byte (a : Attr) : BitVec.ofNat 8 (attrNum a) = match a with
    | .none => 0
    | .privacy => 1
    | .badge => 2
    | .ignore => 3 := by
  cases a <;> rfl

theorem replyAttrRead_refused {p : List Byte} {s : State} (h : srcOf (field p 0 1) = none) : replyAttrRead p s = refuse .badArg s := by
  simp only [replyAttrRead, h]

theorem replyAttrRead_done {p : List Byte} {s : State} {x : Src} (h : srcOf (field p 0 1) = some x) : replyAttrRead p s =
    done (beBytes 2 (runLength (gridBound s x) (field p 1 2) (field p 3 2)) ++
      (List.range (runLength (gridBound s x) (field p 1 2) (field p 3 2))).map fun i =>
        BitVec.ofNat 8 (attrNum ((s.attr.entries.get x).getD (field p 1 2 + i) .none))) s := by
  simp only [replyAttrRead, h, flatMap_beBytes_one]

/-- Settles O49: each read-out by the layout of its bytes. -/
theorem readOutCommands : Obligations.ReadOutCommands := by
  intro s h
  refine ⟨⟨statusBytes s, ?_, ?_, rfl, fun hp => ?_, fun hp => ?_, linkBits_getLsbD s, fun x => ?_, fun i c hc => ?_⟩, fun flag => ?_,
    ?_, ?_, ?_⟩
  · exact takeCommand_done h (ofLength_of_eq rfl _ _) rfl
  · rw [statusBytes_eq, List.length_append, statusHead_length, length_flatten_blocks statusSlot_length]
  · have hstate : poolStateNum s = 0 := by simp only [poolStateNum, hp]
    exact congrArg (BitVec.ofNat 8) hstate
  · show BitVec.ofNat 8 (poolStateNum s) = _
    obtain ⟨p, hp⟩ := Option.ne_none_iff_exists'.mp hp
    simp only [poolStateNum, hp]
    split <;> rfl
  · rw [← statusSource_eq]
    cases x <;> rfl
  · exact (statusBytes_slot hc).trans (statusSlot_eq i c)
  · have hflag : flagAt [flag] 0 = decide (flag ≠ 0) := decide_eq_decide.mpr (by
      rw [show field [flag] 0 1 = flag.toNat from beNat_single flag]
      exact toNat_ne_zero_iff)
    refine ⟨if flag = 0 then s else clearCounters s, ?_, fun hf => if_pos hf, fun hf => (if_neg hf).trans rfl⟩
    refine takeCommand_done h (ofLength_of_eq rfl _ _) ?_
    rw [hflag]
    by_cases hf : flag = 0
    · rw [if_pos hf, if_neg (by simp [hf])]
      rfl
    · rw [if_neg hf, if_pos (decide_eq_true hf)]
      rfl
  · intro b f1 f0 c1 c0 payload
    have hsrc : srcOf (field payload 0 1) = source b := srcOf_byte b
    have hfirst : field payload 1 2 = two f1 f0 := beNat_pair f1 f0
    have hcount : field payload 3 2 = two c1 c0 := beNat_pair c1 c0
    cases hb : source b with
    | none => exact takeCommand_refused h ((ofLength_of_eq rfl _ _).trans (replyAttrRead_refused (hsrc.trans hb)))
    | some x =>
      have hread := replyAttrRead_done (s := framed 17 payload s) (hsrc.trans hb)
      simp only [hfirst, hcount, attrNum_byte] at hread
      exact takeCommand_done h ((ofLength_of_eq rfl _ _).trans hread) rfl
  · exact takeCommand_done h (ofLength_of_eq rfl _ _) rfl
  · intro m1 m0 cause
    have hmask : field [m1, m0] 0 2 = two m1 m0 := beNat_pair m1 m0
    have hcause : s.mlu.cause &&& ~~~(BitVec.ofNat 9 (field [m1, m0] 0 2)) = cause := by rw [hmask]
    rw [← hcause]
    exact takeCommand_done h (ofLength_of_eq rfl _ _) rfl

end Sys2Proof.Machine
end

section
/-! O15: the layouts of what the part sends. -/

namespace Sys2Proof.Machine

open Sys2Proof Sys2Proof.Claims

/-! ### The CRC -/

/-- One bit of data into the CRC register (R173). -/
def crcStep (r : BitVec 16) (bit : Bool) : BitVec 16 := if r.getLsbD 15 = bit then r <<< 1 else (r <<< 1) ^^^ 0x1021#16

/-- The bits of a byte, most significant first. -/
def bitsOf (b : Byte) : List Bool := [7, 6, 5, 4, 3, 2, 1, 0].map fun i => b.getLsbD i

/-- Data mixed into the register ahead of time enters by its top bit, and the rest of it moves up. -/
theorem crcBit_xor (r d : BitVec 16) : crcBit (r ^^^ d) = crcStep r (d.getLsbD 15) ^^^ (d <<< 1) := by
  have hshift : (r ^^^ d) <<< 1 = r <<< 1 ^^^ d <<< 1 := BitVec.shiftLeft_xor_distrib r d 1
  unfold crcBit crcStep
  rw [BitVec.getLsbD_xor, hshift]
  cases r.getLsbD 15 <;> cases d.getLsbD 15 <;> simp [BitVec.xor_assoc, BitVec.xor_comm (d <<< 1)]

/-- Eight bits of data, mixed in ahead of time, enter one after another. -/
theorem crcByte_eq (r : BitVec 16) (b : Byte) : crcByte r b = (bitsOf b).foldl crcStep r := by
  have htop : ∀ i, i < 8 → ((b.zeroExtend 16 <<< 8) <<< i).getLsbD 15 = b.getLsbD (7 - i) := fun i hi => by
    rw [BitVec.getLsbD_shiftLeft, BitVec.getLsbD_shiftLeft, BitVec.getLsbD_setWidth]
    simp [show ¬ 15 < i by omega, show ¬ 15 - i < 8 by omega, show 15 - i < 16 by omega, show 15 - i - 8 = 7 - i by omega,
      show 7 - i < 16 by omega]
  have hgone : (b.zeroExtend 16 <<< 8) <<< 8 = 0#16 := by
    rw [← BitVec.shiftLeft_add]
    exact BitVec.shiftLeft_eq_zero (by omega)
  have hshift : ∀ i : Nat, ((b.zeroExtend 16 <<< 8) <<< i) <<< 1 = (b.zeroExtend 16 <<< 8) <<< (i + 1) := fun i =>
    (BitVec.shiftLeft_add ..).symm
  have hfirst : b.zeroExtend 16 <<< 8 = (b.zeroExtend 16 <<< 8) <<< 0 := (BitVec.shiftLeft_zero _).symm
  unfold crcByte
  rw [hfirst]
  simp only [crcBit_xor, hshift, Nat.zero_add, Nat.reduceAdd, hgone, BitVec.xor_zero]
  rw [htop 0 (by omega), htop 1 (by omega), htop 2 (by omega), htop 3 (by omega), htop 4 (by omega), htop 5 (by omega),
    htop 6 (by omega), htop 7 (by omega)]
  rfl

theorem crc16_eq (bs : List Byte) : crc16 bs = (bs.flatMap bitsOf).foldl crcStep 0xFFFF#16 := by
  unfold crc16
  generalize 0xFFFF#16 = r
  induction bs generalizing r with
  | nil => rfl
  | cons b bs ih => rw [List.foldl_cons, List.flatMap_cons, List.foldl_append, ih, crcByte_eq]

/-! ### Bytes -/

theorem beBytes_length (n v : Nat) : (beBytes n v).length = n := by
  induction n generalizing v with
  | zero => rfl
  | succ n ih => rw [beBytes, List.length_append, ih]; rfl

theorem beNat_beBytes (n v : Nat) : beNat (beBytes n v) = v % 256 ^ n := by
  induction n generalizing v with
  | zero => exact (Nat.mod_one v).symm
  | succ n ih =>
    have hlast : beNat (beBytes (n + 1) v) = beNat (beBytes n (v / 256)) * 256 + v % 256 := by
      rw [beBytes, beNat, List.foldl_append]
      rfl
    rw [hlast, ih, Nat.pow_succ, Nat.mul_comm (256 ^ n), Nat.mod_mul, Nat.mul_comm, Nat.add_comm]

theorem beBytes_two (v : Nat) : beBytes 2 v = [BitVec.ofNat 8 (v / 256), BitVec.ofNat 8 v] := rfl

theorem beBytes_three (v : Nat) : beBytes 3 v = [BitVec.ofNat 8 (v / 65536), BitVec.ofNat 8 (v / 256), BitVec.ofNat 8 v] := by
  show [BitVec.ofNat 8 (v / 256 / 256), _, _] = _
  rw [Nat.div_div_eq_div_mul]

theorem beBytes_four (v : Nat) : beBytes 4 v =
    [BitVec.ofNat 8 (v / 16777216), BitVec.ofNat 8 (v / 65536), BitVec.ofNat 8 (v / 256), BitVec.ofNat 8 v] := by
  show [BitVec.ofNat 8 (v / 256 / 256 / 256), BitVec.ofNat 8 (v / 256 / 256), _, _] = _
  simp only [Nat.div_div_eq_div_mul, Nat.reduceMul]

/-! ### Notices and results -/

theorem noticeBytes_known (kind cls flags repeats channel event : Nat) (overrun : Bool) (x : Src) (n : FrameNo) :
    noticeBytes kind overrun (some x) (some n) cls flags repeats channel event =
      [BitVec.ofNat 8 kind, if overrun then 3 else 2, if x = .s0 then 0 else 1] ++ beBytes 4 n.toNat ++
        [BitVec.ofNat 8 cls, BitVec.ofNat 8 flags] ++ beBytes 2 repeats ++ [BitVec.ofNat 8 channel, BitVec.ofNat 8 event] := by
  cases overrun <;> cases x <;> rfl

theorem markerNotice_bytes (overrun : Bool) (channel : Nat) (e : Event) : noticePayload overrun (.marker channel e) =
    [3, BitVec.ofNat 8 ((if overrun then 1 else 0) + (if e.frame.isSome then 2 else 0)),
      match e.source with
      | none => 255
      | some .s0 => 0
      | some .s1 => 1] ++ beBytes 4 ((e.frame.map BitVec.toNat).getD 0) ++
    [0, 0, 0, 0, BitVec.ofNat 8 channel, BitVec.ofNat 8 (eventNum e.kind)] := by
  obtain ⟨kind, source, frame⟩ := e
  rcases source with _ | x
  · cases overrun <;> cases frame <;> rfl
  · cases x <;> cases overrun <;> cases frame <;> rfl

theorem flagsByte_bits : ∀ a b c d : Bool, let n := flagsByte ⟨a, b, c, d⟩
    n < 16 ∧ n.testBit 0 = a ∧ n.testBit 1 = b ∧ n.testBit 2 = c ∧ n.testBit 3 = d := by
  decide

theorem resultByte_eq {m : Mlu} {r : CommandResult} (h : m.result = some r) (j : Nat) :
    resultByte m j = if j < 2 then 0 else (BitVec.ofNat 8 (answerNum r.code) :: r.data).getD (j - 2) 0 := by
  simp only [resultByte, h]

/-! ### The places of the slots -/

theorem slotSize_cases (p : Plan) : slotSize p = 0 ∨
    ∃ x, (p.source.get x).enabled = true ∧ slotSize p = (p.source.get x).cols * (p.source.get x).rows * 6144 := by
  have size : ∀ q : SourcePlan, (if q.enabled then q.cols * q.rows * Config.tileBytes else 0) = 0 ∨ q.enabled = true := fun q => by
    cases q.enabled <;> simp
  have pick : ∀ x, slotSize p = (if (p.source.get x).enabled then (p.source.get x).cols * (p.source.get x).rows * Config.tileBytes else 0) →
      slotSize p = 0 ∨ ∃ x, (p.source.get x).enabled = true ∧ slotSize p = (p.source.get x).cols * (p.source.get x).rows * 6144 :=
    fun x e => by
      cases hx : (p.source.get x).enabled with
      | false => exact .inl (by rw [e, hx]; rfl)
      | true => exact .inr ⟨x, hx, by rw [e, hx]; rfl⟩
  rcases max_choice (if (p.source.get .s0).enabled then (p.source.get .s0).cols * (p.source.get .s0).rows * Config.tileBytes else 0)
    (if (p.source.get .s1).enabled then (p.source.get .s1).cols * (p.source.get .s1).rows * Config.tileBytes else 0) with e | e
  · exact pick .s0 e
  · exact pick .s1 e

theorem rowPlace_eq {s : State} {p : Plan} (h : s.fpc.plan = some p) (k cols r : Nat) :
    s.rowPlace k cols r = k * slotSize p + r * (cols * 6144) := by
  rw [State.rowPlace, h]
  rfl

/-- Settles O15: the CRC bit by bit, the byte order, each record's layout, the code tables, a result's bytes, and the places of rows. -/
theorem recordLayouts : Obligations.RecordLayouts := by
  refine ⟨crc16_eq, fun v => ⟨rfl, rfl, beBytes_three v, beBytes_four v, fun n => ⟨beBytes_length n v, beNat_beBytes n v⟩⟩,
    fun _ _ _ => rfl, fun _ => rfl, fun _ => rfl, ?_, ?_, by decide, by decide, ?_, ?_, fun p => ?_⟩
  · intro overrun x n src flags number
    exact ⟨fun c f => congrArg (sealRecord 65 0) (noticeBytes_known ..), fun k => congrArg (sealRecord 65 0) (noticeBytes_known ..),
      congrArg (sealRecord 65 0) (noticeBytes_known ..)⟩
  · exact fun overrun channel e => congrArg (sealRecord 65 0) (markerNotice_bytes overrun channel e)
  · exact fun ⟨a, b, c, d⟩ => flagsByte_bits a b c d
  · intro m r h
    refine ⟨resultByte_eq h 0, resultByte_eq h 1, resultByte_eq h 2, fun i => ?_⟩
    rw [resultByte_eq h, if_neg (by omega), show 3 + i - 2 = i + 1 by omega, List.getD_cons_succ]
    split
    · next hi => rw [List.getD_eq_getElem _ _ hi]
    · next hi => rw [List.getD_eq_default _ _ (by omega)]
  · exact ⟨fun x hx => picture_le_slotSize hx, slotSize_cases p, fun s k cols r hp => rowPlace_eq hp k cols r⟩

end Sys2Proof.Machine
end

section
/-! O7: what the reset of a lane does. -/

namespace Sys2Proof.Machine

open Sys2Proof Sys2Proof.Claims

/-! ### The reset of a lane -/

/-- The scheduler after an ingest lane's requests are dropped (R130, R141). -/
theorem dropped_il (x : Src) (m : Scheduler) : orphanBurst (.il x) (withdraw (.il x) m) = { m with
    waiting := m.waiting.set (.il x) none
    dram := match m.dram with
      | .burst b =>
        match b.job with
        | .ingest y _ _ => if y = x then .burst { b with live := false } else .burst b
        | _ => .burst b
      | d => d } := by
  obtain ⟨dram⟩ := m
  rcases dram with _ | ⟨job, cost, remaining, live⟩ | n
  · rfl
  · cases job with
    | ingest y a data =>
      by_cases hy : y = x
      · subst hy
        simp [orphanBurst, withdraw, jobRequester]
      · simp [orphanBurst, withdraw, jobRequester, hy]
    | detector => rfl
    | band l => rfl
  · rfl

/-- The scheduler after a rendition lane's requests are dropped (R130, R141). -/
theorem dropped_rl (l : RLane) (m : Scheduler) : orphanBurst (.rl l) (withdraw (.rl l) m) = { m with
    waiting := m.waiting.set (.rl l) none
    dram := match m.dram with
      | .burst b =>
        match b.job with
        | .band j => if j = l then .burst { b with live := false } else .burst b
        | _ => .burst b
      | d => d } := by
  obtain ⟨dram⟩ := m
  rcases dram with _ | ⟨job, cost, remaining, live⟩ | n
  · rfl
  · cases job with
    | band j =>
      by_cases hj : j = l
      · subst hj
        simp [orphanBurst, withdraw, jobRequester]
      · simp [orphanBurst, withdraw, jobRequester, hj]
    | ingest y a data => rfl
    | detector => rfl
  · rfl

theorem causeLane_il (x : Src) : causeLane (.il x) = BitVec.twoPow 9 (3 + srcNum x) := by cases x <;> rfl
theorem causeLane_rl (l : RLane) : causeLane (.rl l) = BitVec.twoPow 9 (5 + rlNum l) := by cases l <;> rfl

/-- A lane's holds released and its place in every owed set given up, slot by slot (R28). -/
theorem releaseAll_eq (l : RLane) (holds : List Hold) (slots : List Slot) : releaseAll l holds slots = slots.mapIdx fun i c =>
    match c with
    | .analysed cur f v h owed =>
      .analysed cur f v (if holds.any (fun e => decide (e.slot = i)) then h - 1 else h) (owed.set l false)
    | c => c := by
  have hif : ∀ (b : Bool) (c : Slot), leaveOwed l (if b = true then dropHold c else c) = match c with
      | .analysed cur f v h owed => .analysed cur f v (if b = true then h - 1 else h) (owed.set l false)
      | c => c := by
    intro b c
    cases c <;> cases b <;> rfl
  refine List.ext_getElem? fun i => ?_
  simp only [releaseAll, List.getElem?_map, List.getElem?_mapIdx, Option.map_map, Function.comp_def, hif]

/-- Settles O7: each family's record, scheduler part and slots, and what is served or examined after. -/
theorem laneResetEffects : Obligations.LaneResetEffects := by
  refine ⟨?_, ?_⟩
  · intro s x k u
    have hu : clearedLane x { s with mlu := { s.mlu with cause := s.mlu.cause ||| causeLane (.il x) } } = u := by
      simp only [clearedLane, dropRequests, dropped_il, causeLane_il] <;> rfl
    show resetIngestLane x { s with mlu := { s.mlu with cause := s.mlu.cause ||| causeLane (.il x) } } = _
    rw [resetIngestLane_eq, hu]
    show _ = match (s.il.get x).openFrame with
      | none => u
      | some j => serveWaitList (u.setSlot j .free)
    cases (s.il.get x).openFrame <;> rfl
  · intro s l r
    show resetRenditionLane l { s with mlu := { s.mlu with cause := s.mlu.cause ||| causeLane (.rl l) } } = _
    simp only [resetRenditionLane, dropRequests, dropped_rl, causeLane_rl, releaseAll_eq] <;> rfl

end Sys2Proof.Machine
end

section
/-! O6: what a soft reset does. -/

namespace Sys2Proof.Machine

open Sys2Proof Sys2Proof.Claims

/-! ### The records after a soft reset, one by one -/

theorem softResetPart_il (s : State) (x : Src) : (softResetPart s).il.get x = softIngest (s.il.get x) :=
  PerSource.get_map softIngest s.il x

theorem softResetPart_rl (s : State) (l : RLane) : (softResetPart s).rl.get l = softRendition (s.rl.get l) :=
  PerRL.get_map softRendition s.rl l

theorem softResetPart_link (s : State) (lane : Lane) : (softResetPart s).link lane = abortLink (s.link lane) := by
  cases lane with
  | il x => exact congrArg IngestLane.link (softResetPart_il s x)
  | rl l => exact congrArg RenditionLane.link (softResetPart_rl s l)

theorem softPool_slots (f : Fpc) : (softPool f).slots = List.replicate f.slots.length .free := List.map_const'

theorem isAnswer_eq (o : Outgoing) : isAnswer o = decide (o ≠ .bandData) := by cases o <;> rfl

theorem abortLink_outgoing (k : Link) : (abortLink k).outgoing = k.outgoing.filter (fun o => decide (o ≠ .bandData)) ++
    k.queue.map (fun r => .answer { tag := r.tag, kind := r.kind, code := .aborted, body := [] }) := by
  rw [← funext isAnswer_eq]
  rfl

/-- Every counter of a soft reset part is 0: the sources', the lanes', the links' and the part's own (R196). -/
theorem counterList_softResetPart {s : State} {c : Count16} (hc : c ∈ counterList (softResetPart s)) : c = 0 := by
  simp only [counterList, List.mem_append, List.mem_flatMap, List.mem_map] at hc
  rcases hc with ((⟨x, -, hx⟩ | ⟨l, -, hl⟩) | ⟨lane, -, rfl⟩) | hpart
  · have h4 : c ∈ List.replicate 4 (0 : Count16) := by cases x <;> exact hx
    exact List.eq_of_mem_replicate h4
  · rw [softResetPart_rl] at hl
    exact List.eq_of_mem_replicate (n := 3) hl
  · rw [softResetPart_link]
    rfl
  · exact List.eq_of_mem_replicate (n := 3) hpart

/-- Every requester waits for nothing, with the balance of a full allowance (R142). -/
theorem softScheduler_waiting (m : Scheduler) (r : Requester) : (softScheduler m).waiting.get r = none := by
  rcases r with x | _ | l
  · cases x <;> rfl
  · rfl
  · cases l <;> rfl

theorem softScheduler_balance (m : Scheduler) (r : Requester) :
    (softScheduler m).balance.get r = 2 * m.schedule.allowance.get r :=
  PerReq.get_map capOf m.schedule.allowance r

theorem softScheduler_dram (m : Scheduler) : (softScheduler m).dram = match m.dram with
    | .burst b => .burst { b with live := false }
    | d => d := by
  show softDram m.dram = _
  cases m.dram <;> rfl

theorem pair_get {α : Type} (a : α) (x : Src) : (PerSource.mk a a).get x = a := by cases x <;> rfl

/-- Settles O6: the record of each unit after softResetPart. -/
theorem softResetEffects : Obligations.SoftResetEffects := by
  intro s h
  refine ⟨softResetPart s, takeCommand_done h (ofLength_of_eq rfl _ _) rfl, ?pool, ?links, ?ingest, ?rendition,
    fun c hc => counterList_softResetPart hc, ⟨rfl, rfl, rfl, rfl⟩, ?scheduler, ?timebase, ?router, rfl, rfl⟩
  case pool => exact ⟨softPool_slots s.fpc, rfl, rfl, rfl, fun x => ⟨pair_get none x, pair_get 0 x⟩⟩
  case links =>
    intro lane
    rw [softResetPart_link]
    exact ⟨rfl, rfl, rfl, rfl, abortLink_outgoing _, rfl, rfl⟩
  case ingest =>
    intro x
    rw [softResetPart_il]
    exact ⟨rfl, rfl, rfl, rfl⟩
  case rendition =>
    intro l
    rw [softResetPart_rl]
    exact ⟨rfl, rfl, rfl, rfl, rfl, rfl, rfl, rfl, rfl, rfl⟩
  case scheduler =>
    exact ⟨fun r => ⟨softScheduler_waiting s.ms r, softScheduler_balance s.ms r⟩, rfl, rfl, rfl, rfl, rfl, softScheduler_dram s.ms⟩
  case timebase => exact ⟨rfl, rfl, rfl, rfl, rfl, fun x => PerSource.get_map _ s.tcu.cadence x⟩
  case router => exact ⟨rfl, rfl, rfl, rfl, rfl, rfl, rfl, rfl, fun x => PerSource.get_map _ s.clr.chapters x⟩

end Sys2Proof.Machine
end

section
/-! O60: the laws at reset. -/

namespace Sys2Proof.Machine

open Sys2Proof Sys2Proof.Claims

/-! ### The state after reset -/

theorem reset_il (x : Src) : State.reset.il.get x = IngestLane.reset := pair_get _ x
theorem reset_rl (l : RLane) : State.reset.rl.get l = RenditionLane.reset := by cases l <;> rfl
theorem reset_link (lane : Lane) : State.reset.link lane = Link.reset := by
  cases lane with
  | il x => exact congrArg IngestLane.link (reset_il x)
  | rl l => exact congrArg RenditionLane.link (reset_rl l)

theorem reset_waiting (r : Requester) : State.reset.ms.waiting.get r = none := by
  rcases r with x | _ | l
  · cases x <;> rfl
  · rfl
  · cases l <;> rfl

/-- After reset the DRAM carries nobody's burst (R195). -/
theorem not_carries_reset (j : Job) : ¬ Carries State.reset j := by
  rintro ⟨b, hb, -⟩
  cases hb

/-! ### The laws about the scheduler and the bursts -/

theorem creditLaw_reset : CreditLaw State.reset := by
  intro r
  rcases r with x | _ | l
  · cases x <;> decide
  · decide
  · cases l <;> decide

theorem dramLaw_reset : DramLaw State.reset := by
  refine ⟨Nat.le_refl 64, fun _ => ⟨rfl, fun r => ?_⟩, ?_, ?_, ?_, ?_⟩
  · simp only [eligible, reset_waiting]
  all_goals intros; contradiction

/-- With no plan and no lane bound, the schedule of reset honours every row and band there is (R139). -/
theorem capLaw_reset : CapLaw State.reset := by
  refine ⟨⟨by decide, fun _ hp => (nomatch hp), fun l => ?_⟩, fun _ hc => (nomatch hc)⟩
  rw [reset_rl]
  exact Nat.zero_le _

theorem memoryLaw_reset : MemoryLaw State.reset := ⟨.nil, fun _ hc => absurd hc List.not_mem_nil⟩

theorem rowLaw_reset (x : Src) : RowLaw State.reset x := by
  unfold RowLaw
  rw [reset_il]
  exact ⟨reset_waiting _, fun a data => not_carries_reset _⟩

theorem fetchLaw_reset (l : RLane) : FetchLaw State.reset l := by
  unfold FetchLaw
  rw [reset_rl]
  exact ⟨reset_waiting _, not_carries_reset _, rfl, List.not_mem_nil, rfl⟩

theorem burstLaw_reset : BurstLaw State.reset :=
  ⟨dramLaw_reset, ⟨rfl, not_carries_reset _⟩, rowLaw_reset, fetchLaw_reset⟩

/-! ### The laws about the records -/

theorem depthLaw_reset : DepthLaw State.reset := by
  refine ⟨Nat.zero_le _, Nat.zero_le _, Nat.zero_le _, fun l => ?_, fun lane => ?_⟩
  · rw [reset_rl]
    exact Nat.zero_le _
  · rw [reset_link]
    exact Nat.zero_le _

theorem tableLaw_reset : TableLaw State.reset := by
  refine ⟨fun x => ⟨?_, ?_⟩, List.length_replicate, List.length_replicate⟩
  · cases x <;> exact List.length_replicate
  · cases x <;> exact List.length_replicate

theorem linkLaw_reset : LinkLaw State.reset := by
  refine ⟨fun lane => ?_, fun x _ => ?_, fun l _ => ?_, fun _ => rfl⟩
  · rw [reset_link]
    refine ⟨fun _ => ⟨rfl, rfl, rfl⟩, Nat.le_refl 0, fun hb => ?_⟩
    cases lane with
    | il x => cases x <;> cases hb
    | rl l => cases l <;> cases hb
  · rw [reset_il]
    rfl
  · rw [reset_rl]
    exact ⟨rfl, rfl, rfl, rfl⟩

theorem holdLaw_and_owedLaw_reset : HoldLaw State.reset ∧ OwedLaw State.reset :=
  (holdLaw_and_owedLaw_iff _).mpr
    ⟨.of_free noSlot_startUp (fun l => congrArg RenditionLane.holds (reset_rl l))
      (fun l => congrArg RenditionLane.pendingClaim (reset_rl l)),
      not_unwanted_of_free noSlot_startUp⟩

/-- Settles O60, law by law: the pool has no slot, the DRAM carries nothing and every lane's record is the one of reset. -/
theorem lawsHoldAtReset : Obligations.LawsHoldAtReset := by
  obtain ⟨hold, owed⟩ := holdLaw_and_owedLaw_reset
  exact ⟨creditLaw_reset, capLaw_reset, .of_free noSlot_startUp, depthLaw_reset, rfl, memoryLaw_reset, tableLaw_reset,
    (lifeLaw_iff _).mpr fun _ => alive_startUp false,
    (frameLaw_iff _).mpr ⟨.of_free noSlot_startUp, .of_none rfl⟩,
    ⟨fun _ => rfl, fun _ hp => (nomatch hp)⟩,
    (analysisLaw_iff _).mpr ⟨.of_none rfl, .of_free noSlot_startUp⟩,
    hold, owed, (numberLaw_iff _).mpr (.of_free noSlot_startUp), burstLaw_reset, linkLaw_reset⟩

end Sys2Proof.Machine
end

section
/-! O4: every command completes, but for a burst that would reach past the DRAM. -/

namespace Sys2Proof.Machine

open Sys2Proof Sys2Proof.Claims

/-- The outcome is a next state. -/
def Completes (o : Host.Outcome State Fault Refusal) : Prop := ∃ t, o = .next t

theorem completes_next (s : State) : Completes (.next s) := ⟨s, rfl⟩

theorem Completes.ite {p : Prop} [Decidable p] {a b : Host.Outcome State Fault Refusal} (ha : Completes a) (hb : Completes b) :
    Completes (if p then a else b) := by
  split
  · exact ha
  · exact hb

/-! ### Commands that wait for RSTN -/

theorem completes_running {s : State} {f : State → Host.Outcome State Fault Refusal} (hf : Completes (f s)) :
    Completes (running s f) := by
  rcases running_eq s f with ⟨-, e⟩ | ⟨-, e⟩
  · exact ⟨s, e⟩
  · rw [e]
    exact hf

theorem completes_ingestRequest (want : ReqKind) (lane : Lane) (body : Src → Request → State → State) (s : State) :
    Completes (ingestRequest want lane body s) := by
  rcases ingestRequest_cases want lane body s with e | ⟨l, -, e⟩ | ⟨x, r, -, -, -, -, e⟩
  · exact ⟨_, e⟩
  · exact ⟨_, e⟩
  · exact ⟨_, e⟩

theorem completes_renditionRequest (test : Request → Bool) (lane : Lane) (body : RLane → Request → State → State) (s : State) :
    Completes (renditionRequest test lane body s) := by
  rcases renditionRequest_cases test lane body s with e | ⟨x, -, e⟩ | ⟨l, r, -, -, -, -, e⟩
  · exact ⟨_, e⟩
  · exact ⟨_, e⟩
  · exact ⟨_, e⟩

theorem completes_takeCommand (code : Byte) (p : List Byte) (s : State) : Completes (takeCommand code p s) :=
  completes_running (completes_next _)

/-! ### Links and deadlines -/

theorem completes_linkTrainingComplete (lane : Lane) (s : State) : Completes (execLinkTrainingComplete lane s) :=
  completes_running (completes_next _)

theorem completes_linkLoss (lane : Lane) (s : State) : Completes (execLinkLoss lane s) :=
  completes_running (.ite (completes_next _) (completes_next s))

theorem completes_recordReceived (lane : Lane) (bytes : List Byte) (s : State) : Completes (execRecordReceived lane bytes s) := by
  refine completes_running (.ite ?_ (completes_next s))
  cases goodRecord bytes with
  | none => exact completes_next _
  | some r => exact completes_next _

theorem completes_malformedRequest (lane : Lane) (s : State) : Completes (execMalformedRequest lane s) := by
  refine completes_running ?_
  cases readyHead s lane with
  | none => exact completes_next s
  | some r => exact .ite (completes_next _) (completes_next s)

theorem completes_openWaitDeadline (x : Src) (s : State) : Completes (execOpenWaitDeadline x s) := by
  refine completes_running ?_
  dsimp only
  cases (s.il.get x).pendingOpen with
  | none => exact completes_next s
  | some p => exact .ite (completes_next _) (completes_next s)

theorem completes_claimWaitDeadline (l : RLane) (s : State) : Completes (execClaimWaitDeadline l s) := by
  refine completes_running ?_
  cases (s.rl.get l).pendingClaim with
  | none => exact completes_next s
  | some p => exact .ite (completes_next _) (completes_next s)

/-! ### The transmitter, the refresh and the timebase -/

theorem completes_transmitRecord (lane : Lane) (part : SendPart) (s : State) : Completes (execTransmitRecord lane part s) := by
  refine completes_running ?_
  cases part with
  | start => exact completes_next _
  | finish => exact completes_next _
  | whole => exact .ite (completes_next _) (completes_next _)

theorem completes_periodEvent (s : State) : Completes (execPeriodEvent s) :=
  completes_running (.ite (completes_next _) (completes_next s))

theorem completes_refreshComplete (s : State) : Completes (execRefreshComplete s) := by
  refine completes_running ?_
  cases s.ms.dram with
  | idle => exact completes_next s
  | burst b => exact completes_next s
  | refresh n => exact .ite (completes_next _) (completes_next s)

theorem completes_cadenceExpiry (x : Src) (s : State) : Completes (execCadenceExpiry x s) := by
  refine completes_running ?_
  cases (s.tcu.cadence.get x).timer with
  | none => exact completes_next s
  | some t => exact .ite (completes_next _) (completes_next s)

theorem completes_cueEdge (e : CueEdge) (s : State) : Completes (execCueEdge e s) :=
  completes_running (.ite (completes_next _) (completes_next s))

theorem completes_spacingHoldEnd (s : State) : Completes (execSpacingHoldEnd s) := by
  refine completes_running ?_
  cases s.tcu.spacingHold with
  | none => exact completes_next s
  | some t => exact .ite (completes_next _) (completes_next s)

theorem completes_cueAgeExpiry (s : State) : Completes (execCueAgeExpiry s) := by
  refine completes_running ?_
  dsimp only
  cases s.tcu.cues.find? (cueAged s.tcu.time) with
  | none => exact completes_next s
  | some q => exact completes_next _

theorem completes_markerPulseEnd (pin : MarkerPin) (s : State) : Completes (execMarkerPulseEnd pin s) :=
  completes_running (completes_next _)

/-! ### Bursts -/

/-- An ingest burst would end past the 128 MiB (R35). -/
def IngestPastEnd (s : State) : Prop :=
  ∃ b x a data, s.ms.dram = .burst b ∧ b.job = .ingest x a data ∧ ¬ a + data.length ≤ 134217728

/-- A detector row burst would end past the 128 MiB (R51). -/
def DetectorPastEnd (s : State) : Prop :=
  ∃ b k, s.ms.dram = .burst b ∧ b.job = .detector ∧ s.cd.ctx = some k ∧
    ¬ s.rowPlace k.slot k.cols k.nextRow + 64 * k.cols * 64 ≤ 134217728

/-- A band burst would end past the 128 MiB (R120). -/
def BandPastEnd (s : State) : Prop :=
  ∃ b l p x, s.ms.dram = .burst b ∧ b.job = .band l ∧ s.band = some p ∧ slotSource (s.slot p.slot) = some x ∧
    ¬ s.rowPlace p.slot (s.cols x) 0 + s.rows x * (s.cols x * 6144) ≤ 134217728

def BurstPastEnd (s : State) : Prop := IngestPastEnd s ∨ DetectorPastEnd s ∨ BandPastEnd s

/-- A command that completes, or faults where P says why (notes/assumptions/20.md). -/
def CompletesUnless (P : Prop) (o : Host.Outcome State Fault Refusal) : Prop := Completes o ∨ P ∧ o = .fault .dramRange

theorem Completes.unless {P : Prop} {o : Host.Outcome State Fault Refusal} (h : Completes o) : CompletesUnless P o := .inl h

theorem CompletesUnless.mono {P Q : Prop} {o : Host.Outcome State Fault Refusal} (h : CompletesUnless P o) (hpq : P → Q) :
    CompletesUnless Q o := h.imp_right (And.imp_left hpq)

theorem CompletesUnless.running {P : Prop} {s : State} {f : State → Host.Outcome State Fault Refusal}
    (hf : CompletesUnless P (f s)) : CompletesUnless P (running s f) := by
  rcases running_eq s f with ⟨-, e⟩ | ⟨-, e⟩
  · exact .inl ⟨s, e⟩
  · rw [e]
    exact hf

theorem inDram_eq_true (a n : Nat) : inDram a n = true ↔ a + n ≤ 134217728 := decide_eq_true_iff

theorem ingestBurstComplete_unless (s : State) : CompletesUnless (IngestPastEnd s) (execIngestBurstComplete s) := by
  refine .running ?_
  dsimp only
  split
  · next b hb =>
    split
    · next x a data hj =>
      split
      · exact (completes_next s).unless
      · split
        · next hr =>
          exact .inr ⟨⟨b, x, a, data, hb, hj, by simpa [← inDram_eq_true] using hr⟩, rfl⟩
        · exact (completes_next _).unless
    · exact (completes_next s).unless
  · exact (completes_next s).unless

theorem detectorRowBurstComplete_unless (s : State) : CompletesUnless (DetectorPastEnd s) (execDetectorRowBurstComplete s) := by
  refine .running ?_
  split
  · next b hb =>
    split
    · next hj =>
      split
      · exact (completes_next s).unless
      · split
        · next k hk =>
          split
          · exact (completes_next _).unless
          · split
            · exact (completes_next _).unless
            · next hr => exact .inr ⟨⟨b, k, hb, hj, hk, mt (inDram_eq_true _ _).mpr hr⟩, rfl⟩
        · exact (completes_next _).unless
    · exact (completes_next s).unless
  · exact (completes_next s).unless

theorem bandBurstComplete_unless (s : State) : CompletesUnless (BandPastEnd s) (execBandBurstComplete s) := by
  refine .running ?_
  dsimp only
  split
  · next b hb =>
    split
    · next l hj =>
      split
      · exact (completes_next s).unless
      · split
        · next p _ hp =>
          split
          · next x hx =>
            split
            · exact (completes_next _).unless
            · next hr => exact .inr ⟨⟨b, l, p, x, hb, hj, hp, hx, mt (inDram_eq_true _ _).mpr hr⟩, rfl⟩
          · exact (completes_next _).unless
        · exact (completes_next _).unless
    · exact (completes_next s).unless
  · exact (completes_next s).unless

/-! ### Every command -/

theorem exec_unless (c : Instr) (s : State) : CompletesUnless (BurstPastEnd s) (exec c s) := by
  cases c with
  | ingestBurstComplete => exact (ingestBurstComplete_unless s).mono .inl
  | detectorRowBurstComplete => exact (detectorRowBurstComplete_unless s).mono fun h => .inr (.inl h)
  | bandBurstComplete => exact (bandBurstComplete_unless s).mono fun h => .inr (.inr h)
  | powerOnReset | boardReset | rstnAsserted => exact .inl ⟨_, rfl⟩
  | setPlan p | setDetect p | setSchedule p | setRoute p | setCue p | setCadence p | setChapters p | setLaneLimits p
  | attrWrite p | attrRead p | badgeWrite p | readStatus p | readCounters p | popChapters p | readMarkers p
  | readResetCause p | clearResetCause p | softReset p | laneReset p => exact (completes_takeCommand ..).unless
  | unknownCommand code p => exact (Completes.ite (completes_next s) (completes_takeCommand ..)).unless
  | managementFrameCutOff m => exact (completes_next _).unless
  | linkTrainingComplete lane => exact (completes_linkTrainingComplete ..).unless
  | linkLoss lane => exact (completes_linkLoss ..).unless
  | recordReceived lane bytes => exact (completes_recordReceived ..).unless
  | malformedRequest lane => exact (completes_malformedRequest ..).unless
  | openFrame lane | putRows lane | sealFrame lane | abandonFrame lane => exact (completes_ingestRequest ..).unless
  | bind lane | unbind lane | claimNext lane | claimLatest lane | claimNumber lane | release lane | fetch lane
  | fetchMaskFrame lane | fetchMaskSince lane | subscribe lane => exact (completes_renditionRequest ..).unless
  | openWaitDeadline x => exact (completes_openWaitDeadline ..).unless
  | claimWaitDeadline l => exact (completes_claimWaitDeadline ..).unless
  | transmitRecord lane part => exact (completes_transmitRecord ..).unless
  | periodEvent => exact (completes_periodEvent s).unless
  | refreshComplete => exact (completes_refreshComplete s).unless
  | cadenceExpiry x => exact (completes_cadenceExpiry ..).unless
  | cueEdge e => exact (completes_cueEdge e s).unless
  | spacingHoldEnd => exact (completes_spacingHoldEnd s).unless
  | cueAgeExpiry => exact (completes_cueAgeExpiry s).unless
  | markerPulseEnd pin => exact (completes_markerPulseEnd pin s).unless

/-- Settles O4: a command completes or its burst reaches past the DRAM, which the premises exclude. -/
theorem everyCommandCompletes : Obligations.EveryCommandCompletes := by
  refine ⟨fun c s r hr => ?_, fun c s hingest hdetector hband => ?_⟩
  · rcases exec_unless c s with ⟨t, e⟩ | ⟨-, e⟩
    · cases hr.symm.trans e
    · cases hr.symm.trans e
  · rcases exec_unless c s with h | ⟨hpast, -⟩
    · exact h
    · rcases hpast with ⟨b, x, a, data, hb, hj, hn⟩ | ⟨b, k, hb, hj, hk, hn⟩ | ⟨b, l, p, x, hb, hj, hp, hx, hn⟩
      · exact absurd (hingest b x a data hb hj) hn
      · exact absurd (hdetector b k hb hj hk) hn
      · exact absurd (hband b l p x hb hj hp hx) hn

end Sys2Proof.Machine
end

section
/-! O58: a safe state from which one step breaks a law. -/

namespace Sys2Proof.Machine

open Sys2Proof Sys2Proof.Claims

/-- The laws say nothing of RSTN that a low level could break, nothing of the waiting commands, and of the management link only that
its frame is IDLE while CSN is high. -/
theorem SafeState.with_rstnLow {s : State} (h : SafeState s) (q : List Instr) {m : Mlu} (hm : m.csnLow = false → m.frame = .idle) :
    SafeState { s with pending := q, rstnLow := true, mlu := m } := by
  obtain ⟨credit, cap, quota, depth, seq, mem, table, -, frame, plan, analysis, hold, owed, number, burst, ⟨lanes, il, rl, -⟩⟩ := h
  have life : LifeLaw { s with pending := q, rstnLow := true, mlu := m } := fun hr => Bool.noConfusion hr
  exact ⟨credit, cap, quota, depth, seq, mem, table, life, frame, plan, analysis, hold, owed, number, burst, lanes, il, rl, hm⟩

/-- The part as after reset, but with RSTN held low over a frame that is RECEIVING, and CSN about to rise. No run leads here, since the
fall of RSTN leaves the frame IDLE (R187); no law of a safe state says so. -/
def heldFrame : State :=
  { State.reset with
    pending := [.managementFrameCutOff .rise]
    rstnLow := true
    mlu := { Mlu.reset with csnLow := true, frame := .receiving } }

theorem heldFrame_safe : SafeState heldFrame := lawsHoldAtReset.with_rstnLow _ fun h => Bool.noConfusion h

/-- While RSTN is low a rise of CSN is followed, and the frame is left as it was. -/
theorem step_heldFrame : step heldFrame =
    .next { heldFrame with pending := [], mlu := { heldFrame.mlu with csnLow := false } } := rfl

/-- Refutes O58: `LinkLaw` asks for an IDLE frame while CSN is high, and a rise of CSN under a low RSTN changes CSN's level alone. From
`heldFrame`, which has every law, the step leads to a frame that is RECEIVING with CSN high. -/
theorem not_stepKeepsBursts : ¬ Obligations.StepKeepsBursts := by
  rintro ⟨hstep, -⟩
  obtain ⟨-, -, -, -, hframe⟩ := hstep heldFrame _ heldFrame_safe step_heldFrame
  exact FrameState.noConfusion (hframe rfl)

end Sys2Proof.Machine
end

section
/-! O17, O18: what PUT_ROWS and the end of an ingest burst do. -/

namespace Sys2Proof.Machine

open Sys2Proof Sys2Proof.Claims

/-! ### PUT_ROWS -/

theorem field_head (b : Byte) (bs : List Byte) : field (b :: bs) 0 1 = b.toNat := by simp [field, beNat]

theorem putBody_answers {s : State} {x : Src} {r : Request} :
    (s.fpc.plan = none → putBody x r s = answerHead (.il x) .noPlan [] s) ∧
    (s.fpc.plan ≠ none → (s.il.get x).openFrame = none → putBody x r s = answerHead (.il x) .notFilling [] s) := by
  refine ⟨fun hp => ?_, fun hp ho => ?_⟩
  · simp only [putBody, hp]
  · obtain ⟨p, hp⟩ := Option.ne_none_iff_exists'.mp hp
    simp only [putBody, hp, ho]

/-- A PUT_ROWS of a lane with an open frame: the row and its length are checked, then its place in the order of the rows. -/
theorem putBody_filling {s : State} {x : Src} {r : Request} {row : Byte} {data : List Byte} {k : Nat} (hp : s.fpc.plan ≠ none)
    (ho : (s.il.get x).openFrame = some k) (hr : r.payload = row :: data) : putBody x r s =
      if s.rows x ≤ row.toNat ∨ data.length ≠ s.cols x * 6144 then answerHead (.il x) .badArg [] s
      else if row.toNat ≠ rowsWritten s k then answerHead (.il x) .order [BitVec.ofNat 8 (rowsWritten s k)] s
      else placeRequest (.il x) (2 + 24 * s.cols x)
        (s.modIl x fun i => { i with rowBuffer := some { row := row.toNat, data := data } }) := by
  obtain ⟨p, hp⟩ := Option.ne_none_iff_exists'.mp hp
  simp only [putBody, hp, ho, hr, field_head, List.drop_one, List.tail_cons, ingestRowCost_eq, Config.tileBytes]
  rfl

/-- Settles O17: the checks in order, then the row buffer and the request. -/
theorem putRowsMeaning : Obligations.PutRowsMeaning := by
  intro s x tag row data rest r h
  have hk : requestKind r = some .putRows := by simp [requestKind, reqKindOf, lengthSuits, r]
  obtain ⟨hnone, hnot⟩ := putBody_answers (s := s) (x := x) (r := r)
  split
  · next hp => exact ingestRequest_answers h hk (hnone hp)
  · next hp =>
    split
    · next ho => exact ingestRequest_answers h hk (hnot hp ho)
    · next k ho =>
      have hbody := putBody_filling (r := r) hp ho rfl
      split
      · next hbad => exact ingestRequest_answers h hk (hbody.trans (if_pos hbad))
      · next hbad =>
        rw [if_neg hbad] at hbody
        split
        · next hrow => exact ingestRequest_answers h hk (hbody.trans (if_pos hrow))
        · next hrow => exact (ingestRequest_ready h hk putBody).trans (congrArg _ (hbody.trans (if_neg hrow)))

/-! ### The end of an ingest burst -/

theorem rowsWritten_of_filling {s : State} {k n : Nat} {y : Src} {p : Pts} (h : s.fpc.slots[k]? = some (.filling y p n)) :
    rowsWritten s k = n := by
  simp only [rowsWritten, slot_of_getElem? h]

/-- The row of a PUT_ROWS under way is finished: one more row of the FILLING slot is written, and the request is answered. -/
theorem finishRow_filling {s : State} {x y : Src} {k n : Nat} {p : Pts} {r : Request} {rest : List Request}
    (ho : (s.il.get x).openFrame = some k) (hk : s.fpc.slots[k]? = some (.filling y p n))
    (hq : (s.il.get x).link.queue = r :: rest) :
    finishRow x s = reply (.il x) r rest .ok [BitVec.ofNat 8 (n + 1)]
      ((s.setSlot k (.filling y p (n + 1))).modIl x fun i => { i with rowBuffer := none }) := by
  have hk' : (s.setSlot k (.filling y p (n + 1))).fpc.slots[k]? = some (.filling y p (n + 1)) := by
    simp [(List.getElem?_eq_some_iff.mp hk).1]
  have hq' : ((s.setSlot k (.filling y p (n + 1))).modIl x fun i => { i with rowBuffer := none }).link (.il x) =
      (s.il.get x).link := link_modIl_of_link rfl
  simp only [finishRow, ho, slot_of_getElem? hk, addRow]
  rw [rowsWritten_of_filling (by exact hk')]
  exact answerHead_eq_reply (by rw [hq']; exact hq) ..

/-- An ingest burst that fits into the rest of its microsecond and into the DRAM ends. -/
theorem execIngestBurstComplete_ends {s : State} {b : Burst} {x : Src} {a : Nat} {data : List Byte} (hr : s.rstnLow = false)
    (hd : s.ms.dram = .burst b) (hj : b.job = .ingest x a data) (hroom : b.remaining ≤ s.ms.room)
    (hin : a + data.length ≤ 134217728) :
    exec .ingestBurstComplete s = .next (endBurst (if b.live then finishRow x { s with mem := writeBytes s.mem a data }
      else { s with mem := writeBytes s.mem a data })) := by
  have hmay : mayComplete s.ms = true := (mayComplete_iff _).mpr (by rw [hd]; exact hroom)
  have hdram : inDram a data.length = true := (inDram_eq_true _ _).mpr hin
  show execIngestBurstComplete s = _
  simp only [execIngestBurstComplete, running_of_high hr, hd, hj, hmay, hdram, Bool.not_true, Bool.false_eq_true, if_false]

/-- Settles O18: the DRAM after the write, and then the row of the PUT_ROWS under way or nothing more. -/
theorem ingestBurstMeaning : Obligations.IngestBurstMeaning := by
  intro s b x a data hr hd hj hroom hin
  have hends := execIngestBurstComplete_ends hr hd hj hroom hin
  refine ⟨writeBytes s.mem a data, fun i => readByte_writeBytes s.mem a data i, fun hl => ?_, fun k y p n r rest hl ho hk hq => ?_⟩
  · rw [hends, hl]
    rfl
  · rw [hends, hl, if_pos rfl, finishRow_filling (s := { s with mem := writeBytes s.mem a data }) ho hk hq]
    rfl

end Sys2Proof.Machine
end

section
/-! O13: the lane links, the answers to malformed requests and to those of the other family. -/

namespace Sys2Proof.Machine

open Sys2Proof Sys2Proof.Claims

/-! ### The reset of a lane reads nothing of the management frame -/

section
variable (c : Byte) (p : List Byte)

theorem modLink_framed (lane : Lane) (f : Link → Link) (s : State) :
    (framed c p s).modLink lane f = framed c p (s.modLink lane f) := by
  cases lane <;> rfl

theorem answerHead_framed (lane : Lane) (code : AnswerCode) (body : List Byte) (s : State) :
    answerHead lane code body (framed c p s) = framed c p (answerHead lane code body s) := by
  have hlink : (framed c p s).link lane = s.link lane := by cases lane <;> rfl
  unfold answerHead
  rw [hlink]
  split
  · rfl
  · exact modLink_framed ..

/-- A loop whose every turn leaves the management frame unread. -/
theorem foldl_framed {α : Type} {f : State → α → State} (h : ∀ s a, f (framed c p s) a = framed c p (f s a)) (l : List α)
    (s : State) : l.foldl f (framed c p s) = framed c p (l.foldl f s) :=
  List.foldl_hom (framed c p) h

/-- A turn of a loop that acts or not. -/
theorem ite_framed {P : Prop} [Decidable P] {g : State → State} (h : ∀ s, g (framed c p s) = framed c p (g s)) (s : State) :
    (if P then g (framed c p s) else framed c p s) = framed c p (if P then g s else s) := by
  split
  · exact h s
  · rfl

theorem fireChannel_framed (n : Nat) (e : Event) (s : State) : fireChannel n e (framed c p s) = framed c p (fireChannel n e s) := by
  have hloop := foldl_framed c p (f := fun s l => if (s.rl.get l).subs.getLsbD n then placeNotice l (.marker n e) s else s)
    (fun s l => ite_framed c p (g := placeNotice l (.marker n e)) (fun _ => rfl) s) rlAll s
  unfold fireChannel
  rw [hloop]
  rfl

theorem fireEvent_framed (e : Event) (s : State) : fireEvent e (framed c p s) = framed c p (fireEvent e s) :=
  foldl_framed c p (fun s n => ite_framed c p (fun s => fireChannel_framed c p n e s) s) _ s

theorem evictFrame_framed (k : Nat) (s : State) : evictFrame k (framed c p s) = framed c p (evictFrame k s) := by
  by_cases hk : ∃ cur f v h o, s.slot k = .analysed cur f v h o
  · obtain ⟨cur, f, v, h, o, hk⟩ := hk
    rw [evictFrame_eq hk, evictFrame_eq (s := framed c p s) hk, ← fireEvent_framed]
    rfl
  · have hk : ∀ cur f v h o, s.slot k ≠ .analysed cur f v h o := fun cur f v h o e => hk ⟨cur, f, v, h, o, e⟩
    rw [evictFrame_of_not_analysed k s hk, evictFrame_of_not_analysed k (framed c p s) hk]

theorem notePoolLow_framed (n : Nat) (s : State) : notePoolLow n (framed c p s) = framed c p (notePoolLow n s) :=
  ite_framed c p (fun s => fireEvent_framed c p _ s) s

theorem serveOpen_framed (x : Src) (q : Pts) (o : OpenChoice) (s : State) :
    serveOpen x q o (framed c p s) = framed c p (serveOpen x q o s) := by
  cases o with
  | fromFree k =>
    show answerHead _ _ _ (notePoolLow s.freeCount (framed c p (fillSlot x q k s))) = _
    rw [notePoolLow_framed, answerHead_framed]
    rfl
  | evict k =>
    simp only [serveOpen, evictFrame_framed]
    exact answerHead_framed c p _ _ _ (fillSlot x q k (evictFrame k s))

theorem serveWaitOnce_framed (s : State) : serveWaitOnce (framed c p s) = (serveWaitOnce s).map (framed c p) := by
  cases h : serveWaitOnce s with
  | none => exact serveWaitOnce_eq_none.mpr (serveWaitOnce_eq_none (s := s).mp h)
  | some t =>
    obtain ⟨e, o, he, ho, rfl⟩ := serveWaitOnce_eq_some h
    have ho' : openChoice e.source (framed c p s) = some o := ho
    have he' : (framed c p s).fpc.waitList.find? (fun e => (openChoice e.source (framed c p s)).isSome) = some e := he
    simp only [serveWaitOnce, he', ho', Option.map_some]
    exact congrArg some (serveOpen_framed c p _ _ _ (unlist e.source s))

theorem serveWait_framed (n : Nat) (s : State) : serveWait n (framed c p s) = framed c p (serveWait n s) := by
  induction n generalizing s with
  | zero => rfl
  | succ n ih =>
    simp only [serveWait, serveWaitOnce_framed]
    cases serveWaitOnce s with
    | none => rfl
    | some t => exact ih t

theorem serveWaitList_framed (s : State) : serveWaitList (framed c p s) = framed c p (serveWaitList s) :=
  serveWait_framed c p _ s

theorem examineSlot_framed (was : Slot) (k : Nat) (s : State) :
    examineSlot was k (framed c p s) = framed c p (examineSlot was k s) := by
  have hslot : (framed c p s).slot k = s.slot k := rfl
  unfold examineSlot
  rw [hslot]
  split
  · split
    · exact serveWaitList_framed c p (s.setSlot k .free)
    · split
      · rfl
      · exact serveWaitList_framed c p s
  · rfl

theorem settle_framed (before : List Slot) (s : State) : settle before (framed c p s) = framed c p (settle before s) :=
  foldl_framed c p (fun t k => ite_framed c p (fun t => examineSlot_framed c p _ k t) t) _ s

theorem resetIngestLane_framed (x : Src) (s : State) : resetIngestLane x (framed c p s) = framed c p (resetIngestLane x s) := by
  have hcleared : clearedLane x (framed c p s) = framed c p (clearedLane x s) := rfl
  have hopen : ((framed c p s).il.get x).openFrame = (s.il.get x).openFrame := rfl
  rw [resetIngestLane_eq, resetIngestLane_eq, hcleared, hopen]
  cases (s.il.get x).openFrame with
  | none => rfl
  | some k => exact serveWaitList_framed c p ((clearedLane x s).setSlot k .free)

theorem resetRenditionLane_framed (l : RLane) (s : State) :
    resetRenditionLane l (framed c p s) = framed c p (resetRenditionLane l s) := by
  simp only [resetRenditionLane, ← settle_framed]
  rfl

theorem resetLane_framed (lane : Lane) (s : State) : resetLane lane (framed c p s) = framed c p (resetLane lane s) := by
  cases lane with
  | il x => exact resetIngestLane_framed c p x (flagged (.il x) s)
  | rl l => exact resetRenditionLane_framed c p l (flagged (.rl l) s)

end

/-! ### LANE_RESET -/

theorem laneOf_il (x : Src) : laneOf (BitVec.ofNat 8 (srcNum x)).toNat = some (.il x) := by cases x <;> rfl
theorem laneOf_rl (l : RLane) : laneOf (BitVec.ofNat 8 (2 + rlNum l)).toNat = some (.rl l) := by cases l <;> rfl

theorem laneOf_eq_none {n : Nat} (h : 5 < n) : laneOf n = none := by
  obtain ⟨m, rfl⟩ := Nat.exists_eq_add_of_le' h
  rfl

theorem execLaneReset_named {s : State} (h : s.rstnLow = false) {n : Byte} {lane : Lane} (hn : laneOf n.toNat = some lane) :
    exec (.laneReset [n]) s = .next (executed 49 [n] .ok [] (resetLane lane s)) := by
  refine takeCommand_done h (u := framed 49 [n] (resetLane lane s)) ?_ rfl
  rw [commandReply_laneReset, ofLength_of_eq List.length_singleton, replyLaneReset, field_head, hn, ← resetLane_framed]

theorem execLaneReset_unnamed {s : State} (h : s.rstnLow = false) {n : Byte} (hn : 5 < n.toNat) :
    exec (.laneReset [n]) s = .next (executed 49 [n] .badArg [] s) := by
  refine takeCommand_refused h ?_
  rw [commandReply_laneReset, ofLength_of_eq List.length_singleton, replyLaneReset, field_head, laneOf_eq_none hn]

/-! ### Links and records -/

theorem execLinkTrainingComplete_eq {s : State} (h : s.rstnLow = false) (lane : Lane) :
    exec (.linkTrainingComplete lane) s = .next (s.modLink lane fun k => { k with up := true }) := by
  show execLinkTrainingComplete lane s = _
  rw [execLinkTrainingComplete, running_of_high h]

theorem execLinkLoss_eq {s : State} (h : s.rstnLow = false) (lane : Lane) :
    exec (.linkLoss lane) s = if (s.link lane).up then .next (resetLane lane s) else .next s := by
  show execLinkLoss lane s = _
  rw [execLinkLoss, running_of_high h]

theorem execRecordReceived_down {s : State} (h : s.rstnLow = false) {lane : Lane} (hup : (s.link lane).up = false)
    (bytes : List Byte) : exec (.recordReceived lane bytes) s = .next s := by
  show execRecordReceived lane bytes s = _
  simp only [execRecordReceived, running_of_high h, hup, Bool.false_eq_true, if_false]

theorem execRecordReceived_good {s : State} (h : s.rstnLow = false) {lane : Lane} {bytes : List Byte} {r : Request}
    (hup : (s.link lane).up = true) (hg : goodRecord bytes = some r) :
    exec (.recordReceived lane bytes) s = .next (queueRequest lane r s) := by
  show execRecordReceived lane bytes s = _
  simp only [execRecordReceived, running_of_high h, hup, if_true, hg]

theorem execRecordReceived_bad {s : State} (h : s.rstnLow = false) {lane : Lane} {bytes : List Byte}
    (hup : (s.link lane).up = true) (hg : goodRecord bytes = none) :
    exec (.recordReceived lane bytes) s = .next (countBadRecord lane s) := by
  show execRecordReceived lane bytes s = _
  simp only [execRecordReceived, running_of_high h, hup, if_true, hg]

/-- A lane's link changed twice. -/
theorem modLink_modLink (lane : Lane) (f g : Link → Link) (s : State) :
    (s.modLink lane f).modLink lane g = s.modLink lane fun k => g (f k) := by
  cases lane with
  | il x => simp only [State.modLink, State.modIl, PerSource.get_set_self, PerSource.set_set]
  | rl l => simp only [State.modLink, modRl_modRl]

/-- A good record joins the queue, or is answered QUEUE_FULL when four requests stand in it (R174, R175). -/
theorem queueRequest_eq (lane : Lane) (r : Request) (s : State) : queueRequest lane r s =
    if (s.link lane).queue.length < 4 then s.modLink lane fun k => { k with badRun := 0, queue := k.queue ++ [r] }
    else s.modLink lane fun k => { k with
      badRun := 0
      outgoing := k.outgoing ++ [.answer { tag := r.tag, kind := r.kind, code := .queueFull, body := [] }] } := by
  simp only [queueRequest, State.link_modLink_self, Config.queueDepth, pushAnswer, modLink_modLink]

/-- A bad record is counted, and the fourth in a row resets the lane (R174). -/
theorem countBadRecord_eq (lane : Lane) (s : State) :
    let counted := s.modLink lane fun k => { k with errors := satAdd k.errors 1, badRun := k.badRun + 1 }
    countBadRecord lane s = if 3 ≤ (s.link lane).badRun then resetLane lane counted else counted := by
  simp only [countBadRecord, State.link_modLink_self, Config.badRunLimit, Nat.reduceLeDiff]

/-! ### Malformed requests and those of the other family -/

theorem execMalformedRequest_ready {s : State} {lane : Lane} {r : Request} {rest : List Request} (h : Ready s lane r rest)
    (hk : requestKind r = none) : exec (.malformedRequest lane) s = .next (reply lane r rest .badArg [] s) := by
  show execMalformedRequest lane s = _
  simp only [execMalformedRequest, running_of_high h.1, ready_readyHead h, hk, Option.isNone_none, if_true, answerHead_eq_reply h.2.2]

/-- A rendition lane answers a request of the ingest family WRONG_LANE. -/
theorem ingestRequest_wrong {s : State} {l : RLane} {r : Request} {rest : List Request} {want : ReqKind}
    (h : Ready s (.rl l) r rest) (hk : requestKind r = some want) (body : Src → Request → State → State) :
    ingestRequest want (.rl l) body s = .next (reply (.rl l) r rest .wrongLane [] s) := by
  simp only [ingestRequest, running_of_high h.1, ready_readyHead h, hk, if_true, answerHead_eq_reply h.2.2]

/-- An ingest lane answers a request of the rendition family WRONG_LANE. -/
theorem renditionRequest_wrong {s : State} {x : Src} {r : Request} {rest : List Request} {test : Request → Bool}
    (h : Ready s (.il x) r rest) (ht : test r = true) (body : RLane → Request → State → State) :
    renditionRequest test (.il x) body s = .next (reply (.il x) r rest .wrongLane [] s) := by
  simp only [renditionRequest, running_of_high h.1, ready_readyHead h, ht, if_true, answerHead_eq_reply h.2.2]

theorem requestKind_of_suits {r : Request} {k : ReqKind} {b : Byte} {n : Nat} (hb : r.kind = b) (hn : r.payload.length = n)
    (hk : reqKindOf b = some k) (hl : lengthSuits k n = true) : requestKind r = some k := by
  simp only [requestKind, hb, hk, hn, hl, if_true]

theorem isKind_of_suits {r : Request} {k : ReqKind} {b : Byte} {n : Nat} (hb : r.kind = b) (hn : r.payload.length = n)
    (hk : reqKindOf b = some k) (hl : lengthSuits k n = true) : isKind k r = true :=
  decide_eq_true (requestKind_of_suits hb hn hk hl)

theorem isClaim_of_kind {r : Request} {b : Byte} {n : List Byte} {k : ClaimKind} (hb : r.kind = 19) (hp : r.payload = b :: n)
    (hn : n.length = 4) (hk : claimKindOf b.toNat = some k) : isClaim k r = true := by
  have hlen : r.payload.length = 5 := by rw [hp, List.length_cons, hn]
  simp only [isClaim, isKind_of_suits hb hlen rfl rfl, hp, field_head, hk, decide_true, Bool.and_self]

theorem isFetchMask_of_mode {r : Request} {k b : Byte} {n : List Byte} {m : MaskMode} (hb : r.kind = 22)
    (hp : r.payload = k :: b :: n) (hn : n.length = 4) (hm : maskModeOf b.toNat = some m) : isFetchMask m r = true := by
  have hlen : r.payload.length = 6 := by rw [hp, List.length_cons, List.length_cons, hn]
  have hfield : field (k :: b :: n) 1 1 = b.toNat := field_head b n
  simp only [isFetchMask, isKind_of_suits hb hlen rfl rfl, hp, hfield, hm, decide_true, Bool.and_self]

/-- A request is malformed unless its kind byte names a request and its payload length is that kind's (R176, R180, R181). -/
theorem requestKind_eq_none_iff (r : Request) : requestKind r = none ↔
    ¬ ((r.kind = 1 ∧ r.payload.length = 6) ∨ (r.kind = 2 ∧ 1 ≤ r.payload.length) ∨ (r.kind = 3 ∧ r.payload.length = 0) ∨
      (r.kind = 4 ∧ r.payload.length = 0) ∨ (r.kind = 17 ∧ r.payload.length = 11) ∨ (r.kind = 18 ∧ r.payload.length = 0) ∨
      (r.kind = 19 ∧ r.payload.length = 5) ∨ (r.kind = 20 ∧ r.payload.length = 1) ∨ (r.kind = 21 ∧ r.payload.length = 3) ∨
      (r.kind = 22 ∧ r.payload.length = 6) ∨ (r.kind = 23 ∧ r.payload.length = 1)) := by
  simp only [BitVec.toNat_eq (x := r.kind), requestKind, reqKindOf]
  split
  · next h =>
    split at h
    all_goals cases h
    simp_all
  · next k h =>
    split at h
    all_goals cases h
    all_goals simp [lengthSuits, *]

/-- Settles O13: each link event by its own equation, LANE_RESET past the frame that brings it, and the two refusals of a request by
the lane it came to. -/
theorem laneLinkCommands : Obligations.LaneLinkCommands := by
  refine ⟨fun s h => ?links, fun s lane bytes h => ?records, fun s r rest => ?requests⟩
  case links =>
    refine ⟨execLinkTrainingComplete_eq h, fun lane hup => ?_, fun lane hup => ?_, fun x => execLaneReset_named h (laneOf_il x),
      fun l => execLaneReset_named h (laneOf_rl l), fun n hn => execLaneReset_unnamed h hn⟩
    · simp only [execLinkLoss_eq h, hup, if_true]
    · simp only [execLinkLoss_eq h, hup, Bool.false_eq_true, if_false]
  case records =>
    refine ⟨fun hup => execRecordReceived_down h hup bytes, fun r hup hg hq => ?_, fun r hup hg hq => ?_, fun hup hg hb => ?_,
      fun hup hg hb => ?_⟩
    · rw [execRecordReceived_good h hup hg, queueRequest_eq, if_pos hq]
    · rw [execRecordReceived_good h hup hg, queueRequest_eq, if_neg (Nat.not_lt.mpr hq)]
    · rw [execRecordReceived_bad h hup hg, countBadRecord_eq, if_neg (Nat.not_le.mpr hb)]
    · rw [execRecordReceived_bad h hup hg, countBadRecord_eq, if_pos hb]
  case requests =>
    refine ⟨fun lane h hk => execMalformedRequest_ready h hk, fun l h => ?ingest, fun x h => ?rendition,
      requestKind_eq_none_iff r⟩
    case ingest =>
      intro wrong
      exact ⟨fun hb hn => ingestRequest_wrong h (requestKind_of_suits hb hn rfl rfl) openBody,
        fun hb hn => ingestRequest_wrong h (requestKind_of_suits hb rfl rfl (decide_eq_true hn)) putBody,
        fun hb hn => ingestRequest_wrong h (requestKind_of_suits hb (by rw [hn]) rfl rfl) sealBody,
        fun hb hn => ingestRequest_wrong h (requestKind_of_suits hb (by rw [hn]) rfl rfl) abandonBody⟩
    case rendition =>
      intro wrong
      exact ⟨fun hb hn => show execBind (.il x) s = wrong from renditionRequest_wrong h (isKind_of_suits hb hn rfl rfl) _,
        fun hb hn => show execUnbind (.il x) s = wrong from renditionRequest_wrong h (isKind_of_suits hb (by rw [hn]) rfl rfl) _,
        fun n hb hp hn => show execClaimNext (.il x) s = wrong from renditionRequest_wrong h (isClaim_of_kind hb hp hn rfl) _,
        fun n hb hp hn => show execClaimLatest (.il x) s = wrong from renditionRequest_wrong h (isClaim_of_kind hb hp hn rfl) _,
        fun n hb hp hn => show execClaimNumber (.il x) s = wrong from renditionRequest_wrong h (isClaim_of_kind hb hp hn rfl) _,
        fun hb hn => show execRelease (.il x) s = wrong from renditionRequest_wrong h (isKind_of_suits hb hn rfl rfl) _,
        fun hb hn => show execFetch (.il x) s = wrong from renditionRequest_wrong h (isKind_of_suits hb hn rfl rfl) _,
        fun k n hb hp hn => show execFetchMaskFrame (.il x) s = wrong from renditionRequest_wrong h (isFetchMask_of_mode hb hp hn rfl) _,
        fun k n hb hp hn => show execFetchMaskSince (.il x) s = wrong from renditionRequest_wrong h (isFetchMask_of_mode hb hp hn rfl) _,
        fun hb hn => show execSubscribe (.il x) s = wrong from renditionRequest_wrong h (isKind_of_suits hb hn rfl rfl) _⟩

end Sys2Proof.Machine
end

section
/-! SUPPORT for O52. The stores of the part (the DRAM's cells, the tables, the log, the queues and the FIFO), the law of their shape, and
the shared operations that keep it. -/

namespace Sys2Proof.Machine

open Sys2Proof Sys2Proof.Claims

/-! ### The stores and their shape -/

/-- The consecutive sequence numbers of so many records, the newest one below the next number (R161). -/
def seqRun (next : BitVec 16) (n : Nat) : List (BitVec 16) := (List.range n).map (fun i => next - BitVec.ofNat 16 (n - i))

/-- The router's stores: six generators, and the chapter log and marker queue within their depths (R160, R161, R163, R166). -/
structure RouterSound (c : Router) : Prop where
  generators : c.generators.length = 6
  log : c.log.length ≤ Config.logDepth
  sequence : c.log.map ChapterRec.seq = seqRun c.nextSeq c.log.length
  markers : c.markers.length ≤ Config.markerDepth

/-- The stores of the part. -/
structure StoresView where
  mem : List Host.Cell
  tiles : PerSource (List TileRec)
  attr : AttrTable
  router : Router
  cues : List CueRec
  notices : RLane → List Notice
  queue : Lane → List Request

def State.stores (s : State) : StoresView where
  mem := s.mem
  tiles := s.cd.tiles
  attr := s.attr
  router := s.clr
  cues := s.tcu.cues
  notices l := (s.rl.get l).notices
  queue lane := (s.link lane).queue

/-- The stores are of their shape: the four laws of O52, store by store. -/
structure StoresView.Sound (v : StoresView) : Prop where
  mem : memWf v.mem
  tiles : ∀ x, (v.tiles.get x).length = 640
  entries : ∀ x, (v.attr.entries.get x).length = 640
  lines : v.attr.stencil.lines.length = 64
  router : RouterSound v.router
  cues : v.cues.length ≤ Config.cueDepth
  notices : ∀ l, (v.notices l).length ≤ Config.noticeDepth
  queue : ∀ lane, (v.queue lane).length ≤ Config.queueDepth

/-- The stores of a state are of their shape. It speaks of the stores alone, so it holds as it is after any update of the rest. -/
def Stored (s : State) : Prop := s.stores.Sound

theorem stored_iff (s : State) : Stored s ↔ MemoryLaw s ∧ TableLaw s ∧ DepthLaw s ∧ SequenceLaw s where
  mp h := ⟨h.mem, ⟨fun x => ⟨h.tiles x, h.entries x⟩, h.lines, h.router.generators⟩,
    ⟨h.router.log, h.router.markers, h.cues, h.notices, h.queue⟩, h.router.sequence⟩
  mpr := fun ⟨hm, ⟨ht, hs, hg⟩, ⟨hl, hk, hc, hn, hq⟩, hseq⟩ =>
    ⟨hm, fun x => (ht x).1, fun x => (ht x).2, hs, ⟨hg, hl, hseq, hk⟩, hc, hn, hq⟩

/-! ### Updates of a lane and of a unit -/

section
variable {s : State}

/-- An update of the rest of the state. -/
theorem Stored.of_stores (h : Stored s) {t : State} (e : t.stores = s.stores) : Stored t := by
  unfold Stored
  rw [e]
  exact h

/-- An ingest lane's update within the depth of its request queue. -/
theorem Stored.setIl (h : Stored s) {x : Src} {f : IngestLane → IngestLane}
    (hq : (f (s.il.get x)).link.queue.length ≤ Config.queueDepth) : Stored (s.modIl x f) :=
  { h with
    queue := fun lane => by
      cases lane with
      | il y =>
        show (((s.il.set x (f (s.il.get x))).get y).link.queue).length ≤ _
        rw [PerSource.get_set]
        split
        · exact hq
        · exact h.queue (.il y)
      | rl l => exact h.queue (.rl l) }

/-- An ingest lane's update that does not lengthen its request queue. -/
theorem Stored.modIl (h : Stored s) {x : Src} {f : IngestLane → IngestLane}
    (hq : (f (s.il.get x)).link.queue.length ≤ (s.il.get x).link.queue.length) : Stored (s.modIl x f) :=
  h.setIl (hq.trans (h.queue (.il x)))

/-- A rendition lane's update within the depths of its queues. -/
theorem Stored.setRl (h : Stored s) {l : RLane} {f : RenditionLane → RenditionLane}
    (hn : (f (s.rl.get l)).notices.length ≤ Config.noticeDepth)
    (hq : (f (s.rl.get l)).link.queue.length ≤ Config.queueDepth) : Stored (s.modRl l f) :=
  { h with
    notices := fun j => by
      show (((s.rl.set l (f (s.rl.get l))).get j).notices).length ≤ _
      rw [PerRL.get_set]
      split
      · exact hn
      · exact h.notices j
    queue := fun lane => by
      cases lane with
      | il x => exact h.queue (.il x)
      | rl j =>
        show (((s.rl.set l (f (s.rl.get l))).get j).link.queue).length ≤ _
        rw [PerRL.get_set]
        split
        · exact hq
        · exact h.queue (.rl j) }

/-- A rendition lane's update that lengthens neither of its queues. -/
theorem Stored.modRl (h : Stored s) {l : RLane} {f : RenditionLane → RenditionLane}
    (hn : (f (s.rl.get l)).notices.length ≤ (s.rl.get l).notices.length)
    (hq : (f (s.rl.get l)).link.queue.length ≤ (s.rl.get l).link.queue.length) : Stored (s.modRl l f) :=
  h.setRl (hn.trans (h.notices l)) (hq.trans (h.queue (.rl l)))

/-- A link's update within the depth of its queue. -/
theorem Stored.modLink (h : Stored s) {lane : Lane} {f : Link → Link} (hq : (f (s.link lane)).queue.length ≤ Config.queueDepth) :
    Stored (s.modLink lane f) := by
  cases lane with
  | il x => exact h.setIl hq
  | rl l => exact h.setRl (h.notices l) hq

theorem Stored.clr (h : Stored s) {c : Router} (hc : RouterSound c) : Stored { s with clr := c } := { h with router := hc }

theorem Stored.cd (h : Stored s) {d : Detector} (hd : ∀ x, (d.tiles.get x).length = 640) : Stored { s with cd := d } :=
  { h with tiles := hd }

theorem Stored.tcu (h : Stored s) {t : Timebase} (hc : t.cues.length ≤ Config.cueDepth) : Stored { s with tcu := t } :=
  { h with cues := hc }

/-! ### Answers, notices and events -/

theorem Stored.answerHead (h : Stored s) (lane : Lane) (c : AnswerCode) (b : List Byte) : Stored (answerHead lane c b s) := by
  cases hq : (s.link lane).queue with
  | nil => rwa [answerHead_nil hq]
  | cons r rest =>
    rw [answerHead_cons hq]
    have : (r :: rest).length ≤ Config.queueDepth := hq ▸ h.queue lane
    exact h.modLink (Nat.le_of_succ_le this)

theorem Stored.placeNotice (h : Stored s) (l : RLane) (n : Notice) : Stored (placeNotice l n s) := by
  refine h.setRl ?_ ?_
  · split
    · next hl => simpa using hl
    · have := h.notices l
      simp only [State.stores, Config.noticeDepth] at this
      simp only [List.length_append, List.length_tail, List.length_singleton, Config.noticeDepth]
      omega
  · split <;> exact h.queue (.rl l)

theorem RouterSound.pushMarker {c : Router} (h : RouterSound c) (n : Nat) (e : Event) : RouterSound (pushMarker n e c) := by
  unfold Machine.pushMarker
  split
  · next hl => exact { h with markers := by simpa using hl }
  · refine { h with markers := ?_ }
    have := h.markers
    simp only [Config.markerDepth] at this
    simp only [List.length_append, List.length_tail, List.length_singleton, Config.markerDepth]
    omega

theorem RouterSound.routeFiring {c : Router} (h : RouterSound c) (now : Stamp) (n : Nat) (e : Event) :
    RouterSound (routeFiring now n e c) := by
  have hp : RouterSound (if c.mgmtSubs.getLsbD n then Machine.pushMarker n e c else c) := by
    split
    · exact h.pushMarker n e
    · exact h
  unfold Machine.routeFiring
  dsimp only
  split
  · exact { hp with }
  · split
    · exact { hp with }
    · exact hp

theorem Stored.fireChannel (h : Stored s) (n : Nat) (e : Event) : Stored (fireChannel n e s) := by
  have hn := foldl_inv Stored (fun s l => if (s.rl.get l).subs.getLsbD n then Machine.placeNotice l (.marker n e) s else s)
    (fun u l hu => by
      split
      · exact hu.placeNotice ..
      · exact hu) rlAll s h
  exact hn.clr (hn.router.routeFiring ..)

theorem Stored.fireEvent (h : Stored s) (e : Event) : Stored (fireEvent e s) :=
  foldl_inv Stored _ (fun u n hu => by
    split
    · exact hu.fireChannel ..
    · exact hu) _ s h

theorem Stored.notePoolLow (h : Stored s) (n : Nat) : Stored (notePoolLow n s) := by
  unfold Machine.notePoolLow
  split
  · exact h.fireEvent _
  · exact h

theorem Stored.sendReady (h : Stored s) (k : Nat) : Stored (sendReady k s) := by
  unfold Machine.sendReady
  split
  · exact foldl_inv Stored _ (fun u l hu => by
      split
      · exact hu.placeNotice ..
      · exact hu) _ s h
  · exact h

theorem Stored.sendRepeats (h : Stored s) (x : Src) (n : FrameNo) (c : Count16) : Stored (sendRepeats x n c s) :=
  foldl_inv Stored _ (fun u l hu => by
    split
    · exact hu.placeNotice ..
    · exact hu) _ s h

theorem Stored.repeatFrame (h : Stored s) (x : Src) (n : FrameNo) : Stored (repeatFrame x n s) := by
  have hc : ∀ u : State, Stored u → Stored (checkStall x n u) := fun u hu => by
    unfold checkStall
    dsimp only
    split
    · exact Stored.fireEvent (s := u.modCadence x _) hu _
    · exact hu
  exact hc _ (Stored.sendRepeats (s := (s.modCadence x _).modCounters x _) h ..)

theorem Stored.captureCue (h : Stored s) : Stored (captureCue s) := by
  unfold Machine.captureCue
  dsimp only
  split
  · next hl => exact Stored.fireEvent (h.tcu (by simpa using hl)) _
  · exact h

/-! ### The scheduler and the transmitter -/

theorem Stored.beginBand (h : Stored s) (r : Requester) : Stored (beginBand r s) := by
  cases r with
  | rl l =>
    have hb : Stored { s with band := openBand s l } := h
    exact hb.modRl (f := fun x => { x with fetch := x.fetch.map (fun c => { c with phase := .read }) }) le_rfl le_rfl
  | il x => exact h
  | det => exact h

theorem Stored.makeGrant (h : Stored s) : Stored (makeGrant s) := by
  rcases makeGrant_cases s with e | ⟨r, c, -, -, -, -, e⟩
  · rwa [e]
  · rw [e]
    refine Stored.beginBand ?_ r
    exact h

theorem Stored.placeRequest (h : Stored s) (r : Requester) (c : Nat) : Stored (placeRequest r c s) :=
  Stored.makeGrant (s := { s with ms := _ }) h

theorem Stored.endBurst (h : Stored s) : Stored (endBurst s) := Stored.makeGrant (s := { s with ms := _ }) h

theorem Stored.bufferBand (h : Stored s) (l : RLane) (b : Band) : Stored (bufferBand l b s) := h.modRl le_rfl le_rfl

theorem Stored.bandSent (h : Stored s) (l : RLane) : Stored (bandSent l s) := by
  unfold Machine.bandSent
  split
  · exact h.modRl le_rfl le_rfl
  · split
    · exact (h.modRl le_rfl le_rfl).answerHead ..
    · exact (h.modRl le_rfl le_rfl).placeRequest ..

theorem Stored.takeOutgoing (h : Stored s) {lane : Lane} {t : State} {r : OutRecord} (ht : takeOutgoing lane s = some (r, t)) :
    Stored t := by
  rcases takeOutgoing_cases ht with ⟨rest, rfl⟩ | ⟨l, n, rest, -, hn, rfl⟩
  · exact h.modLink (h.queue lane)
  · exact h.modRl (by rw [hn]; exact Nat.le_succ _) le_rfl

theorem Stored.beginSend (h : Stored s) (lane : Lane) : Stored (beginSend lane s) := by
  unfold Machine.beginSend
  split
  · exact h
  · split
    · next ht => exact (h.takeOutgoing ht).modLink ((h.takeOutgoing ht).queue lane)
    · exact h

theorem Stored.endSend (h : Stored s) (lane : Lane) : Stored (endSend lane s) := by
  unfold Machine.endSend
  split
  · exact h
  · have hs : ∀ k : Option Sending, ∀ b : List Byte, Stored (s.modLink lane (fun l => { l with sending := k, lastSent := b })) :=
      fun k b => h.modLink (h.queue lane)
    dsimp only
    split
    · exact (hs _ _).bandSent _
    · exact hs _ _

theorem Stored.queueRequest (h : Stored s) (lane : Lane) (r : Request) : Stored (queueRequest lane r s) := by
  rw [queueRequest_eq]
  split
  · next hl => exact h.modLink (by simpa [Config.queueDepth] using hl)
  · exact h.modLink (h.queue lane)

/-! ### The pool -/

theorem Stored.evictFrame (h : Stored s) (k : Nat) : Stored (evictFrame k s) := by
  unfold Machine.evictFrame
  split
  · next x f v n owed _ =>
    refine Stored.fireEvent (s := State.modCounters _ f.source _) (foldl_inv Stored _ (fun u l hu => ?_) rlAll s h) _
    split
    · exact (hu.placeNotice l _).modRl le_rfl le_rfl
    · exact hu
  · exact h

theorem Stored.fillSlot (h : Stored s) (x : Src) (p : Pts) (k : Nat) : Stored (fillSlot x p k s) :=
  Stored.modIl (s := s.setSlot k _) h le_rfl

theorem Stored.serveOpen (h : Stored s) (x : Src) (p : Pts) (c : OpenChoice) : Stored (serveOpen x p c s) := by
  cases c with
  | fromFree k => exact ((h.fillSlot x p k).notePoolLow _).answerHead ..
  | evict k => exact ((h.evictFrame k).fillSlot x p k).answerHead ..

theorem Stored.serveWaitList (h : Stored s) : Stored (serveWaitList s) := by
  refine serveWaitList_inv Stored (fun u t hu ht => ?_) s h
  obtain ⟨e, c, -, -, rfl⟩ := serveWaitOnce_eq_some ht
  refine Stored.serveOpen ?_ ..
  exact hu

theorem Stored.examineSlot (h : Stored s) (was : Slot) (k : Nat) : Stored (examineSlot was k s) := by
  rcases examineSlot_cases was k s with e | e | ⟨f, v, o, -, -, e⟩ <;> rw [e]
  · exact h
  · exact h.serveWaitList
  · exact Stored.serveWaitList (s := s.setSlot k .free) h

theorem Stored.settle (h : Stored s) (before : List Slot) : Stored (settle before s) :=
  settle_inv Stored (fun was k _ hu => hu.examineSlot was k) before s h

theorem Stored.leaveSource (h : Stored s) (l : RLane) (x : Src) : Stored (leaveSource l x s) :=
  Stored.settle (s := s.mapSlots _) h _

theorem Stored.takeFrame (h : Stored s) (l : RLane) (b : Binding) (k : Nat) : Stored (takeFrame l b k s) := by
  unfold Machine.takeFrame
  split
  · exact ((Stored.modRl (s := claimSlots l b.source k _ s) h le_rfl le_rfl).settle _).answerHead ..
  · exact h

theorem Stored.startAnalysis (h : Stored s) : Stored (startAnalysis s) := by
  rcases startAnalysis_cases s with e | ⟨k, rest, -, -, -, e⟩ | ⟨k, rest, f, -, -, -, e⟩ <;> rw [e]
  · exact h
  · exact h
  · refine Stored.placeRequest ?_ ..
    exact h

/-! ### Lane resets -/

theorem Stored.resetIngestLane (h : Stored s) (x : Src) : Stored (resetIngestLane x s) := by
  have hd : Stored (dropRequests (.il x) s) := h
  have hc : Stored (clearedLane x s) := (hd.modIl (x := x) (f := fun r => { r with
    link := resetLink r.link, openFrame := none, pendingOpen := none, rowBuffer := none }) (Nat.zero_le _)).of_stores rfl
  rw [resetIngestLane_eq]
  split
  · exact Stored.serveWaitList (s := (clearedLane x s).setSlot _ _) hc
  · exact hc

theorem Stored.resetRenditionLane (h : Stored s) (l : RLane) : Stored (resetRenditionLane l s) := by
  have hd : Stored (dropRequests (.rl l) s) := h
  have hr : Stored ((dropRequests (.rl l) s).modRl l resetRenditionRecord) := hd.modRl (Nat.zero_le _) (Nat.zero_le _)
  unfold Machine.resetRenditionLane
  refine Stored.settle ?_ _
  exact hr

theorem Stored.resetLane (h : Stored s) (lane : Lane) : Stored (resetLane lane s) := by
  cases lane with
  | il x => exact Stored.resetIngestLane (s := flagged (.il x) s) h x
  | rl l => exact Stored.resetRenditionLane (s := flagged (.rl l) s) h l

end

end Sys2Proof.Machine
end

section
/-! SUPPORT for O52. The detector, the lanes' requests and the management commands keep the shape of the stores. -/

namespace Sys2Proof.Machine

open Sys2Proof Sys2Proof.Claims

/-! ### Consecutive sequence numbers -/

/-- One more record takes the next number. -/
theorem seqRun_succ (next : BitVec 16) (n : Nat) : seqRun (next + 1) (n + 1) = seqRun next n ++ [next] := by
  unfold seqRun
  rw [List.range_succ, List.map_append, List.map_singleton]
  congr 1
  · refine List.map_congr_left fun i hi => ?_
    rw [show n + 1 - i = (n - i) + 1 by have := List.mem_range.mp hi; omega, BitVec.ofNat_add]
    bv_omega
  · rw [Nat.add_sub_cancel_left]
    exact congrArg (fun x => [x]) (by bv_omega)

/-- The newest records of a run are a run. -/
theorem seqRun_drop (next : BitVec 16) (n k : Nat) : (seqRun next n).drop k = seqRun next (n - k) := by
  apply List.ext_getElem
  · simp [seqRun]
  · intro i hi _
    simp [seqRun, Nat.sub_sub]

theorem RouterSound.recordChapter {c : Router} (h : RouterSound c) (f : SealedFrame) (m n : Nat) (r : ChapterReason) :
    RouterSound (recordChapter c f m n r) := by
  unfold Machine.recordChapter appendChapter
  dsimp only
  split
  · next hl =>
    refine { h with log := by simpa using hl, sequence := ?_ }
    rw [List.map_append, List.length_append, List.length_singleton, seqRun_succ, h.sequence]
    rfl
  · exact { h with }

/-- The oldest records of the log, or entries of the marker queue, are removed. -/
theorem RouterSound.drop {c : Router} (h : RouterSound c) (n m : Nat) (o : Bool) :
    RouterSound { c with log := c.log.drop n, markers := c.markers.drop m, markerOverrun := o } where
  generators := h.generators
  log := (List.length_drop.trans_le (Nat.sub_le ..)).trans h.log
  sequence := by rw [List.map_drop, List.length_drop, h.sequence, seqRun_drop]
  markers := (List.length_drop.trans_le (Nat.sub_le ..)).trans h.markers

/-! ### The detector -/

theorem examineCues_length (x : Src) (arrival : Stamp) (cls : FrameClass) (window : Nat) (cues : List CueRec) :
    (examineCues x arrival cls window cues).1.length ≤ cues.length := by
  unfold examineCues
  split
  · exact le_rfl
  · split
    · exact (List.length_filter_le ..).trans_eq (List.length_map ..)
    · exact List.length_filter_le ..

theorem measureRow_length (mem : List Host.Cell) (base r : Nat) (tiles : List TileRec) (c : AnalysisCtx) :
    (measureRow mem base r tiles c).1.length = tiles.length :=
  foldl_keep (fun p : List TileRec × AnalysisCtx => p.1.length) _ (fun _ _ => List.length_set ..) _ (tiles, c)

section
variable {s : State}

theorem Stored.servePendingClaims (h : Stored s) (x : Src) (k : Nat) : Stored (servePendingClaims x k s) :=
  foldl_inv Stored _ (fun u l hu => by
    split
    · split
      · exact hu.takeFrame ..
      · exact hu
    · exact hu) rlAll s h

theorem Stored.announced (h : Stored s) (k : Nat) (f : SealedFrame) (v : Verdict) : Stored (announced k f v s) := by
  have hs : Stored (supersede f.source k f (chaptered f v s) s) := by
    rw [supersede_eq]
    exact h
  unfold Machine.announced
  refine Stored.sendReady ?_ k
  split
  · exact hs.clr (hs.router.recordChapter ..)
  · exact hs

theorem Stored.raised (h : Stored s) (f : SealedFrame) (v : Verdict) (why : Option ChapterReason) : Stored (raised f v why s) := by
  unfold Machine.raised
  dsimp only
  split <;> split
  · exact (h.fireEvent _).fireEvent _
  · exact h.fireEvent _
  · exact h.fireEvent _
  · exact h

theorem Stored.completeFrame (h : Stored s) (k : Nat) (f : SealedFrame) (v : Verdict) : Stored (completeFrame k f v s) := by
  have hb := ((h.announced k f v).raised f v (decision f v s)).servePendingClaims f.source k
  rw [completeFrame_eq]
  dsimp only
  split
  · split
    · exact hb
    · exact hb.examineSlot ..
  · exact hb

theorem Stored.completeAnalysis (h : Stored s) (c : AnalysisCtx) : Stored (completeAnalysis c s) := by
  have ha : Stored (analysed c s) := h.tcu (t := { s.tcu with cues := _ }) ((examineCues_length ..).trans h.cues)
  have hw : ∀ u : State, Stored u → Stored (withCtx none u) := fun _ hu => hu
  rw [completeAnalysis_eq]
  refine (hw _ ?_).startAnalysis
  split
  · exact ha.completeFrame ..
  · exact ha

theorem tiles_set_length {p : PerSource (List TileRec)} (h : ∀ x, (p.get x).length = 640) {x : Src} {tiles : List TileRec}
    (ht : tiles.length = 640) (y : Src) : ((p.set x tiles).get y).length = 640 := by
  rw [PerSource.get_set]
  split
  · exact ht
  · exact h y

theorem Stored.rowStep (h : Stored s) (c : AnalysisCtx) : Stored (rowStep c s) := by
  have hm := (measureRow_length s.mem (s.rowPlace c.slot c.cols 0) c.nextRow (s.cd.tiles.get c.source) c).trans (h.tiles c.source)
  unfold Machine.rowStep
  generalize measureRow s.mem (s.rowPlace c.slot c.cols 0) c.nextRow (s.cd.tiles.get c.source) c = q at hm ⊢
  have hd : ∀ (y : Src) (d : AnalysisCtx), Stored { s with cd := { s.cd with tiles := s.cd.tiles.set y q.1, ctx := some d } } :=
    fun y d => h.cd (tiles_set_length h.tiles hm)
  dsimp only
  split
  · exact Stored.placeRequest (hd _ _) ..
  · exact Stored.completeAnalysis (hd _ _) _

/-! ### Ingest lanes -/

theorem Stored.sealSlot (h : Stored s) (x : Src) (k : Nat) (y : Src) (p : Pts) : Stored (sealSlot x k y p s) := by
  unfold Machine.sealSlot
  dsimp only
  refine Stored.startAnalysis (Stored.answerHead (Stored.modIl ?_ le_rfl) ..)
  exact h

theorem Stored.finishRow (h : Stored s) (x : Src) : Stored (finishRow x s) := by
  unfold Machine.finishRow
  split
  · exact h
  · refine Stored.answerHead (Stored.modIl ?_ le_rfl) ..
    exact h

theorem Stored.openBody (h : Stored s) (x : Src) (r : Request) : Stored (openBody x r s) := by
  unfold Machine.openBody
  split
  · exact h.answerHead ..
  · split
    · exact h.answerHead ..
    · split
      · exact h.answerHead ..
      · dsimp only
        split
        · exact h.serveOpen ..
        · unfold waitOrDrop
          dsimp only
          split
          · refine Stored.answerHead ?_ ..
            exact h
          · refine Stored.modIl ?_ le_rfl
            exact h

theorem Stored.putBody (h : Stored s) (x : Src) (r : Request) : Stored (putBody x r s) := by
  unfold Machine.putBody
  split
  · exact h.answerHead ..
  · split
    · exact h.answerHead ..
    · dsimp only
      split
      · exact h.answerHead ..
      · split
        · exact h.answerHead ..
        · exact (h.modIl le_rfl).placeRequest ..

theorem Stored.sealBody (h : Stored s) (x : Src) (r : Request) : Stored (sealBody x r s) := by
  unfold Machine.sealBody
  split
  · exact h.answerHead ..
  · split
    · exact h.answerHead ..
    · split
      · split
        · exact h.answerHead ..
        · exact h.sealSlot ..
      · exact h.answerHead ..

theorem Stored.abandonBody (h : Stored s) (x : Src) (r : Request) : Stored (abandonBody x r s) := by
  unfold Machine.abandonBody
  split
  · exact h.answerHead ..
  · split
    · exact h.answerHead ..
    · refine (Stored.answerHead (Stored.modIl ?_ le_rfl) ..).serveWaitList
      exact h

/-! ### Rendition lanes -/

theorem Stored.applyBind (h : Stored s) (l : RLane) (x : Src) (v : Window) : Stored (applyBind l x v s) := by
  have fresh : ∀ u : State, Stored u → Stored (bindFresh l x v u) := fun _ hu => hu.modRl le_rfl le_rfl
  unfold Machine.applyBind
  split
  · exact fresh s h
  · split
    · exact h.modRl le_rfl le_rfl
    · exact fresh _ ((h.modRl le_rfl le_rfl).leaveSource ..)

theorem Stored.bindBody (h : Stored s) (l : RLane) (r : Request) : Stored (bindBody l r s) := by
  unfold Machine.bindBody
  split
  · exact h.answerHead ..
  · split
    · exact h.answerHead ..
    · dsimp only
      split
      · exact h.answerHead ..
      · split
        · exact h.answerHead ..
        · split
          · exact h.answerHead ..
          · exact (h.applyBind ..).answerHead ..

theorem Stored.unbindBody (h : Stored s) (l : RLane) (r : Request) : Stored (unbindBody l r s) := by
  unfold Machine.unbindBody
  split
  · exact h.answerHead ..
  · split
    · exact h.answerHead ..
    · split
      · exact h.answerHead ..
      · exact ((h.modRl le_rfl le_rfl).leaveSource ..).answerHead ..

theorem Stored.claimChecked (h : Stored s) {l : RLane} {r : Request} {g : Binding → State → State} (hg : ∀ b, Stored (g b s)) :
    Stored (claimChecked l r g s) := by
  unfold Machine.claimChecked
  split
  · exact h.answerHead ..
  · split
    · exact h.answerHead ..
    · split
      · exact h.answerHead ..
      · split
        · exact h.answerHead ..
        · exact hg _

theorem Stored.nextBody (h : Stored s) (l : RLane) (t : Byte) (b : Binding) : Stored (nextBody l t b s) := by
  unfold Machine.nextBody
  split
  · exact h.takeFrame ..
  · unfold waitClaim
    dsimp only
    split
    · exact h.answerHead ..
    · exact h.modRl le_rfl le_rfl

theorem Stored.latestBody (h : Stored s) (l : RLane) (b : Binding) : Stored (latestBody l b s) := by
  unfold Machine.latestBody
  split
  · exact h.answerHead ..
  · split
    · exact h.takeFrame ..
    · exact h.answerHead ..

theorem Stored.numberBody (h : Stored s) (l : RLane) (n : FrameNo) (b : Binding) : Stored (numberBody l n b s) := by
  unfold Machine.numberBody
  split
  · exact h.answerHead ..
  · split
    · exact h.answerHead ..
    · split
      · exact h.answerHead ..
      · split
        · exact h.takeFrame ..
        · exact h.answerHead ..

theorem Stored.releaseBody (h : Stored s) (l : RLane) (r : Request) : Stored (releaseBody l r s) := by
  unfold Machine.releaseBody
  split
  · exact h.answerHead ..
  · dsimp only
    split
    · exact h.answerHead ..
    · have hr := h.modRl (l := l) (f := fun x => { x with holds := x.holds.filter (fun e => e.slot ≠ field r.payload 0 1) }) le_rfl le_rfl
      refine (Stored.settle ?_ _).answerHead ..
      exact hr

theorem Stored.maskChecked (h : Stored s) (l : RLane) (r : Request) (m : Nat → State → TileSet) : Stored (maskChecked l r m s) := by
  unfold Machine.maskChecked
  split
  · exact h.answerHead ..
  · dsimp only
    split
    · exact h.answerHead ..
    · split <;> exact h.answerHead ..

theorem Stored.fetchBody (h : Stored s) (l : RLane) (r : Request) : Stored (fetchBody l r s) := by
  unfold Machine.fetchBody
  split
  · exact h.answerHead ..
  · split
    · exact h.answerHead ..
    · dsimp only
      split
      · exact h.answerHead ..
      · split
        · exact (h.modRl le_rfl le_rfl).placeRequest ..
        · exact h.modRl le_rfl le_rfl

theorem Stored.subscribeBody (h : Stored s) (l : RLane) (r : Request) : Stored (subscribeBody l r s) :=
  (h.modRl le_rfl le_rfl).answerHead ..

end

end Sys2Proof.Machine
end

section
/-! O52: every command, and every step, keeps the shape of the stores. -/

namespace Sys2Proof.Machine

open Sys2Proof Sys2Proof.Claims

/-! ### Settings -/

section
variable {s : State}

/-- All lanes replaced at once, within the depths of their queues. -/
theorem Stored.lanes (h : Stored s) {il : PerSource IngestLane} {rl : PerRL RenditionLane}
    (hi : ∀ x, (il.get x).link.queue.length ≤ Config.queueDepth) (hn : ∀ l, (rl.get l).notices.length ≤ Config.noticeDepth)
    (hr : ∀ l, (rl.get l).link.queue.length ≤ Config.queueDepth) : Stored { s with il := il, rl := rl } :=
  { h with
    notices := hn
    queue := fun lane => by
      cases lane with
      | il x => exact hi x
      | rl l => exact hr l }

theorem RouterSound.restartChapters {c : Router} (h : RouterSound c) : RouterSound (restartChapters c) := { h with }

theorem reseedDetector_tiles (d : Detector) (x : Src) : ((reseedDetector d).tiles.get x).length = 640 := by
  cases x <;> exact List.length_replicate

theorem Stored.takePlan (h : Stored s) (p : Plan) : Stored (takePlan p s) := by
  have hl : Stored { s with rl := s.rl.map (fun r => { r with binding := none, mark := none, holds := [] }) } :=
    h.lanes (fun x => h.queue (.il x)) (fun l => by rw [PerRL.get_map]; exact h.notices l)
      (fun l => by rw [PerRL.get_map]; exact h.queue (.rl l))
  exact ((hl.cd (reseedDetector_tiles s.cd)).tcu (t := restartTimebase s.tcu) (Nat.zero_le _)).clr h.router.restartChapters

theorem Stored.softResetPart (h : Stored s) : Stored (softResetPart s) := by
  have hl : Stored { s with il := s.il.map softIngest, rl := s.rl.map softRendition } :=
    h.lanes (fun x => by rw [PerSource.get_map]; exact Nat.zero_le _) (fun l => by rw [PerRL.get_map]; exact Nat.zero_le _)
      (fun l => by rw [PerRL.get_map]; exact Nat.zero_le _)
  have hr : RouterSound (softRouter s.clr) := { h.router.restartChapters with markers := Nat.zero_le _ }
  exact ((hl.cd (reseedDetector_tiles s.cd)).tcu (t := { restartTimebase s.tcu with cueOverruns := 0 }) (Nat.zero_le _)).clr hr

theorem Stored.clearCounters (h : Stored s) : Stored (clearCounters s) := by
  have hl := h.lanes (il := s.il.map (fun r => { r with link := { r.link with errors := 0 } }))
    (rl := s.rl.map (fun r => { r with link := { r.link with errors := 0 }, skipped := 0, lost := 0, noticeOverruns := 0 }))
    (fun x => by rw [PerSource.get_map]; exact h.queue (.il x)) (fun l => by rw [PerRL.get_map]; exact h.notices l)
    (fun l => by rw [PerRL.get_map]; exact h.queue (.rl l))
  exact hl.clr (c := { s.clr with overflows := 0, markerOverruns := 0 }) { h.router with }

theorem generatorsOf_length {p : List Byte} {gs : List Generator} (h : generatorsOf p = some gs) : gs.length = 6 := by
  have hr : List.range 6 = [0, 1, 2, 3, 4, 5] := rfl
  simp only [generatorsOf, hr, List.mapM_cons, List.mapM_nil, Option.bind_eq_bind, Option.bind_eq_some_iff, Option.pure_def,
    Option.some.injEq] at h
  obtain ⟨k0, -, _, ⟨k1, -, _, ⟨k2, -, _, ⟨k3, -, _, ⟨k4, -, _, ⟨k5, -, _, rfl, rfl⟩, rfl⟩, rfl⟩, rfl⟩, rfl⟩, rfl⟩ := h
  rfl

/-! ### Attributes and the badge stencil -/

theorem reseedTile_tiles (h : ∀ x, (s.cd.tiles.get x).length = 640) (d : Detector) (hd : d.tiles = s.cd.tiles) (x : Src) (t : Nat) (y : Src) :
    ((reseedTile x t d).tiles.get y).length = 640 := by
  refine tiles_set_length (fun y => by rw [hd]; exact h y) ?_ y
  rw [List.length_set, hd]
  exact h x

theorem Stored.writeAttr (h : Stored s) (x : Src) (v : Attr) (t : Nat) : Stored (writeAttr x v t s) := by
  have ha : Stored { s with attr := { s.attr with entries := s.attr.entries.set x ((s.attr.entries.get x).set t v) } } :=
    { h with
      entries := fun y => by
        show ((s.attr.entries.set x _).get y).length = 640
        rw [PerSource.get_set]
        split
        · rw [List.length_set]; exact h.entries x
        · exact h.entries y }
  unfold Machine.writeAttr
  dsimp only
  split
  · exact ha
  · refine ha.cd fun y => ?_
    split
    · exact reseedTile_tiles h.tiles (markTile x t s.cd) rfl x t y
    · exact h.tiles y

theorem writtenStencil_lines (p : List Byte) (n : Nat) (t : Stencil) : (writtenStencil p n t).lines.length = t.lines.length :=
  foldl_keep List.length _ (fun _ _ => List.length_set ..) _ _

theorem Stored.replyBadgeWrite (h : Stored s) (p : List Byte) : Stored (replyBadgeWrite p s).state := by
  have hs : ∀ n, Stored { s with attr := { s.attr with stencil := writtenStencil p n s.attr.stencil } } := fun n =>
    { h with lines := (writtenStencil_lines p n s.attr.stencil).trans h.lines }
  have hm := markBadges_keeps Detector.tiles (fun _ _ _ => rfl) s s.cd
  unfold Machine.replyBadgeWrite
  dsimp only [done]
  split
  · exact hs _
  · exact (hs _).cd fun x => by rw [hm]; exact h.tiles x

/-! ### The command table -/

theorem Stored.ofLength (h : Stored s) {n : Nat} {p : List Byte} {r : Reply} (hr : Stored r.state) : Stored (ofLength n p r s).state := by
  rcases ofLength_cases n p r s with e | e <;> rw [e]
  · exact hr
  · exact h

theorem Stored.replySetPlan (h : Stored s) (p : List Byte) : Stored (replySetPlan p s).state := by
  unfold Machine.replySetPlan
  dsimp only
  split
  · exact h
  · split
    · exact h
    · exact h.takePlan _

theorem Stored.replySetDetect (h : Stored s) (p : List Byte) : Stored (replySetDetect p s).state := by
  unfold Machine.replySetDetect
  split <;> exact h

theorem Stored.replySetSchedule (h : Stored s) (p : List Byte) : Stored (replySetSchedule p s).state := by
  unfold Machine.replySetSchedule
  split
  · exact h
  · dsimp only
    split <;> exact h

theorem Stored.replySetRoute (h : Stored s) (p : List Byte) : Stored (replySetRoute p s).state := by
  cases hg : generatorsOf p with
  | none => rw [replySetRoute_refused hg]; exact h
  | some gs => rw [replySetRoute_done hg]; exact h.clr { h.router with generators := generatorsOf_length hg }

theorem Stored.replySetCue (h : Stored s) (p : List Byte) : Stored (replySetCue p s).state := by
  unfold Machine.replySetCue
  split <;> exact h

theorem Stored.replySetCadence (h : Stored s) (p : List Byte) : Stored (replySetCadence p s).state := by
  unfold Machine.replySetCadence
  split <;> exact h

theorem Stored.replySetChapters (h : Stored s) (p : List Byte) : Stored (replySetChapters p s).state := by
  unfold Machine.replySetChapters
  split
  · exact h
  · exact h.clr { h.router with }

theorem Stored.replySetLaneLimits (h : Stored s) (p : List Byte) : Stored (replySetLaneLimits p s).state := by
  rw [replySetLaneLimits_eq]
  refine h.lanes (fun x => ?_) (fun l => ?_) (fun l => ?_)
  · cases x
    exacts [h.queue (.il .s0), h.queue (.il .s1)]
  · cases l
    exacts [h.notices .r0, h.notices .r1, h.notices .r2, h.notices .r3]
  · cases l
    exacts [h.queue (.rl .r0), h.queue (.rl .r1), h.queue (.rl .r2), h.queue (.rl .r3)]

theorem Stored.replyAttrWrite (h : Stored s) (p : List Byte) : Stored (replyAttrWrite p s).state := by
  unfold Machine.replyAttrWrite
  split
  · exact foldl_inv Stored _ (fun u i hu => hu.writeAttr ..) _ s h
  · exact h

theorem Stored.replyReadCounters (h : Stored s) (p : List Byte) : Stored (replyReadCounters p s).state := by
  unfold Machine.replyReadCounters
  dsimp only [done]
  split
  · exact h.clearCounters
  · exact h

theorem Stored.replyLaneReset (h : Stored s) (p : List Byte) : Stored (replyLaneReset p s).state := by
  unfold Machine.replyLaneReset
  split
  · exact h
  · exact h.resetLane _

/-- The execution of a command by its code. -/
theorem Stored.commandReply (h : Stored s) (code : Byte) (p : List Byte) : Stored (commandReply code p s).state := by
  unfold Machine.commandReply
  split
  · exact h.ofLength (h.replySetPlan p)
  · exact h.ofLength (h.replySetDetect p)
  · exact h.ofLength (h.replySetSchedule p)
  · exact h.ofLength (h.replySetRoute p)
  · exact h.ofLength (h.replySetCue p)
  · exact h.ofLength (h.replySetCadence p)
  · exact h.ofLength (h.replySetChapters p)
  · exact h.ofLength (h.replySetLaneLimits p)
  · exact h.ofLength (h.replyAttrWrite p)
  · exact h.ofLength (by rw [replyAttrRead_settings]; exact h)
  · exact h.ofLength (h.replyBadgeWrite p)
  · exact h.ofLength h
  · exact h.ofLength (h.replyReadCounters p)
  · exact h.ofLength (h.clr (h.router.drop _ 0 s.clr.markerOverrun))
  · exact h.ofLength (h.clr (h.router.drop 0 _ _))
  · exact h.ofLength h
  · exact h.ofLength h
  · exact h.ofLength h.softResetPart
  · exact h.ofLength (h.replyLaneReset p)
  · exact h

end

/-! ### Management frames -/

section
variable {s t : State}

/-- A command that runs only while RSTN is high keeps the stores when it keeps them while RSTN is high. -/
theorem Stored.running (h : Stored s) {f : State → Host.Outcome State Fault Refusal} (e : running s f = .next t)
    (hf : f s = .next t → Stored t) : Stored t := by
  rcases running_eq s f with ⟨-, er⟩ | ⟨-, er⟩
  · cases er.symm.trans e
    exact h
  · exact hf (er.symm.trans e)

theorem Stored.closeFrame (h : Stored s) (staged : List Byte) (code : Byte) (p : List Byte) (m : Mlu) :
    Stored (closeFrame staged (Machine.commandReply code p { s with mlu := m })) := by
  have hm : Stored { s with mlu := m } := h
  exact hm.commandReply code p

theorem Stored.takeCommand (h : Stored s) {code : Byte} {p : List Byte} (e : takeCommand code p s = .next t) : Stored t := by
  refine h.running e fun e => ?_
  cases e
  exact h.closeFrame ..

theorem Stored.managementFrameCutOff (h : Stored s) {m : Sys2Proof.FrameMove} (e : execManagementFrameCutOff m s = .next t) :
    Stored t := by
  unfold execManagementFrameCutOff at e
  split at e <;> cases e
  · exact h
  · cases m with
    | whole staged =>
      simp only [moveFrame]
      split <;> exact h
    | fall => exact h
    | byte b =>
      rcases clockByte_cases b s with ⟨-, e⟩ | ⟨-, -, e⟩ | ⟨-, code, len, p, -, -, e⟩ | ⟨-, f, -, -, e⟩ <;> rw [moveFrame, e]
      · exact h
      · exact h
      · exact h.closeFrame ..
      · exact h
    | rise => exact h

/-! ### Links and requests -/

theorem Stored.ingestRequest (h : Stored s) {want : ReqKind} {lane : Lane} {body : Src → Request → State → State}
    (e : ingestRequest want lane body s = .next t) (hb : ∀ x r, Stored (body x r s)) : Stored t := by
  rcases ingestRequest_cases want lane body s with er | ⟨l, -, er⟩ | ⟨x, r, -, -, -, -, er⟩ <;> cases er.symm.trans e
  · exact h
  · exact h.answerHead ..
  · exact hb x r

theorem Stored.renditionRequest (h : Stored s) {test : Request → Bool} {lane : Lane} {body : RLane → Request → State → State}
    (e : renditionRequest test lane body s = .next t) (hb : ∀ l r, Stored (body l r s)) : Stored t := by
  rcases renditionRequest_cases test lane body s with er | ⟨x, -, er⟩ | ⟨l, r, -, -, -, -, er⟩ <;> cases er.symm.trans e
  · exact h
  · exact h.answerHead ..
  · exact hb l r

theorem Stored.recordReceived (h : Stored s) {lane : Lane} {bytes : List Byte} (e : execRecordReceived lane bytes s = .next t) :
    Stored t := by
  refine h.running e fun e => ?_
  split at e
  · split at e <;> cases e
    · exact h.queueRequest ..
    · have hl := h.modLink (lane := lane) (f := fun k => { k with errors := satAdd k.errors 1, badRun := k.badRun + 1 }) (h.queue lane)
      rw [countBadRecord_eq]
      split
      · exact hl.resetLane lane
      · exact hl
  · cases e; exact h

theorem Stored.linkTrainingComplete (h : Stored s) {lane : Lane} (e : execLinkTrainingComplete lane s = .next t) : Stored t := by
  refine h.running e fun e => ?_
  cases e
  exact h.modLink (h.queue lane)

theorem Stored.linkLoss (h : Stored s) {lane : Lane} (e : execLinkLoss lane s = .next t) : Stored t := by
  refine h.running e fun e => ?_
  split at e <;> cases e
  · exact h.resetLane lane
  · exact h

theorem Stored.malformedRequest (h : Stored s) {lane : Lane} (e : execMalformedRequest lane s = .next t) : Stored t := by
  refine h.running e fun e => ?_
  split at e
  · cases e; exact h
  · split at e <;> cases e
    · exact h.answerHead ..
    · exact h

theorem Stored.openWaitDeadline (h : Stored s) {x : Src} (e : execOpenWaitDeadline x s = .next t) : Stored t := by
  refine h.running e fun e => ?_
  split at e
  · cases e; exact h
  · split at e <;> cases e
    · have hw : Stored (unlist x s) := h
      have hd : Stored (dropWait x s) := hw.modIl le_rfl
      refine Stored.answerHead ?_ ..
      exact hd
    · exact h

theorem Stored.claimWaitDeadline (h : Stored s) {l : RLane} (e : execClaimWaitDeadline l s = .next t) : Stored t := by
  refine h.running e fun e => ?_
  split at e
  · cases e; exact h
  · split at e <;> cases e
    · exact (h.modRl le_rfl le_rfl).answerHead ..
    · exact h

/-! ### Bursts and the transmitter -/

/-- The row of an ingest burst goes to the DRAM, and its cells keep their canonical form (R1). -/
theorem Stored.ingestBurstComplete (h : Stored s) (e : execIngestBurstComplete s = .next t) : Stored t := by
  have hm : ∀ a data, Stored { s with mem := writeBytes s.mem a data } := fun a data =>
    { h with mem := writeBytes_wf h.mem a data }
  refine h.running e fun e => ?_
  dsimp only at e
  split at e
  · split at e
    · split at e
      · cases e; exact h
      · split at e <;> cases e
        refine Stored.endBurst ?_
        split
        · exact (hm _ _).finishRow _
        · exact hm _ _
    · cases e; exact h
  · cases e; exact h

theorem Stored.detectorRowBurstComplete (h : Stored s) (e : execDetectorRowBurstComplete s = .next t) : Stored t := by
  refine h.running e fun e => ?_
  split at e
  · split at e
    · split at e
      · cases e; exact h
      · split at e
        · split at e
          · cases e; exact h.endBurst
          · split at e <;> cases e
            exact h.endBurst.rowStep _
        · cases e; exact h.endBurst
    · cases e; exact h
  · cases e; exact h

theorem Stored.bandBurstComplete (h : Stored s) (e : execBandBurstComplete s = .next t) : Stored t := by
  have hb : Stored { s with band := none } := h
  refine h.running e fun e => ?_
  dsimp only at e
  repeat' split at e
  all_goals cases e
  · exact h
  · exact (hb.bufferBand ..).endBurst
  · exact hb.endBurst
  · exact hb.endBurst
  · exact h
  · exact h

theorem Stored.transmitRecord (h : Stored s) {lane : Lane} {part : SendPart} (e : execTransmitRecord lane part s = .next t) : Stored t := by
  refine h.running e fun e => ?_
  cases part with
  | start => cases e; exact h.beginSend lane
  | finish => cases e; exact h.endSend lane
  | whole =>
    dsimp only at e
    split at e <;> cases e
    · exact h
    · exact (h.beginSend lane).endSend lane

theorem Stored.refreshComplete (h : Stored s) (e : execRefreshComplete s = .next t) : Stored t := by
  have hr : Stored { s with ms := refill (applySchedule s.ms) } := h
  refine h.running e fun e => ?_
  split at e
  · split at e <;> cases e
    · exact hr.endBurst
    · exact h
  · cases e; exact h

/-! ### Time -/

theorem Stored.periodEvent (h : Stored s) (e : execPeriodEvent s = .next t) : Stored t := by
  refine h.running e fun e => ?_
  dsimp only at e
  split at e <;> cases e <;> exact h

theorem Stored.cadenceExpiry (h : Stored s) {x : Src} (e : execCadenceExpiry x s = .next t) : Stored t := by
  have hc : ∀ (u : State) (f : Cadence → Cadence), Stored u → Stored (u.modCadence x f) := fun _ _ hu => hu
  refine h.running e fun e => ?_
  dsimp only at e
  split at e
  · cases e; exact h
  · split at e <;> cases e
    · refine hc _ _ ?_
      split
      · exact h.repeatFrame ..
      · exact h
    · exact h

theorem Stored.cueEdge (h : Stored s) {g : CueEdge} (e : execCueEdge g s = .next t) : Stored t := by
  refine h.running e fun e => ?_
  dsimp only at e
  split at e <;> cases e
  · refine Stored.captureCue ?_
    exact h
  · exact h

theorem Stored.spacingHoldEnd (h : Stored s) (e : execSpacingHoldEnd s = .next t) : Stored t := by
  refine h.running e fun e => ?_
  dsimp only at e
  split at e
  · cases e; exact h
  · split at e <;> cases e <;> exact h

theorem Stored.cueAgeExpiry (h : Stored s) (e : execCueAgeExpiry s = .next t) : Stored t := by
  refine h.running e fun e => ?_
  dsimp only at e
  split at e <;> cases e
  · exact h
  · exact h.tcu (t := { s.tcu with cues := _ }) (List.length_eraseP_le.trans h.cues)

theorem Stored.markerPulseEnd (h : Stored s) {pin : MarkerPin} (e : execMarkerPulseEnd pin s = .next t) : Stored t := by
  refine h.running e fun e => ?_
  cases e
  cases pin <;> exact h.clr { h.router with }

/-! ### Start-up and RSTN -/

theorem stored_reset : Stored State.reset := (stored_iff _).mpr ⟨memoryLaw_reset, tableLaw_reset, depthLaw_reset, rfl⟩

/-- The start-up state keeps the DRAM's bytes (R195). -/
theorem Stored.startUp (h : Stored s) (cause : BitVec 9) : Stored (startUp s cause) :=
  { stored_reset with mem := h.mem }

theorem Stored.halted (h : Stored s) (e : execRstnAsserted s = .next t) : Stored t := by
  cases e
  have hl := h.lanes
    (il := s.il.map (fun r => { r with link := stopLink r.link, openFrame := none, pendingOpen := none, rowBuffer := none }))
    (rl := s.rl.map (fun r => { r with link := stopLink r.link, pendingClaim := none, fetch := none, bandBuffer := none }))
    (fun x => by rw [PerSource.get_map]; exact Nat.zero_le _) (fun l => by rw [PerRL.get_map]; exact h.notices l)
    (fun l => by rw [PerRL.get_map]; exact Nat.zero_le _)
  exact hl

/-! ### Every command -/

theorem Stored.exec (h : Stored s) {c : Instr} (e : exec c s = .next t) : Stored t := by
  cases c with
  | powerOnReset => cases e; exact h.startUp 1
  | boardReset => cases e; exact h.startUp _
  | rstnAsserted => exact h.halted e
  | setPlan p | setDetect p | setSchedule p | setRoute p | setCue p | setCadence p | setChapters p | setLaneLimits p
  | attrWrite p | attrRead p | badgeWrite p | readStatus p | readCounters p | popChapters p | readMarkers p
  | readResetCause p | clearResetCause p | softReset p | laneReset p => exact h.takeCommand e
  | unknownCommand code p =>
    simp only [Machine.exec, execUnknownCommand] at e
    split at e
    · cases e; exact h
    · exact h.takeCommand e
  | managementFrameCutOff m => exact h.managementFrameCutOff e
  | linkTrainingComplete lane => exact h.linkTrainingComplete e
  | linkLoss lane => exact h.linkLoss e
  | recordReceived lane bytes => exact h.recordReceived e
  | malformedRequest lane => exact h.malformedRequest e
  | openFrame lane => exact h.ingestRequest e h.openBody
  | putRows lane => exact h.ingestRequest e h.putBody
  | sealFrame lane => exact h.ingestRequest e h.sealBody
  | abandonFrame lane => exact h.ingestRequest e h.abandonBody
  | bind lane => exact h.renditionRequest e h.bindBody
  | unbind lane => exact h.renditionRequest e h.unbindBody
  | claimNext lane => exact h.renditionRequest e fun l r => h.claimChecked (h.nextBody l r.tag)
  | claimLatest lane => exact h.renditionRequest e fun l r => h.claimChecked (h.latestBody l)
  | claimNumber lane => exact h.renditionRequest e fun l r => h.claimChecked (h.numberBody l _)
  | release lane => exact h.renditionRequest e h.releaseBody
  | fetch lane => exact h.renditionRequest e h.fetchBody
  | fetchMaskFrame lane => exact h.renditionRequest e fun l r => h.maskChecked l r _
  | fetchMaskSince lane => exact h.renditionRequest e fun l r => h.maskChecked l r _
  | subscribe lane => exact h.renditionRequest e h.subscribeBody
  | openWaitDeadline x => exact h.openWaitDeadline e
  | claimWaitDeadline l => exact h.claimWaitDeadline e
  | ingestBurstComplete => exact h.ingestBurstComplete e
  | detectorRowBurstComplete => exact h.detectorRowBurstComplete e
  | bandBurstComplete => exact h.bandBurstComplete e
  | transmitRecord lane part => exact h.transmitRecord e
  | periodEvent => exact h.periodEvent e
  | refreshComplete => exact h.refreshComplete e
  | cadenceExpiry x => exact h.cadenceExpiry e
  | cueEdge g => exact h.cueEdge e
  | spacingHoldEnd => exact h.spacingHoldEnd e
  | cueAgeExpiry => exact h.cueAgeExpiry e
  | markerPulseEnd pin => exact h.markerPulseEnd e

theorem Stored.step (h : Stored s) (e : step s = .next t) : Stored t := by
  rcases step_cases s with ⟨c, rest, -, es⟩ | ⟨-, -, es⟩ | ⟨c, -, -, -, es⟩ | ⟨-, -, -, es⟩ <;> rw [es] at e
  · have hr : Stored { s with pending := rest } := h
    exact hr.exec e
  · cases e; exact h
  · exact h.exec e
  · cases e; exact h

end

/-- Settles O52: the four laws are the shape of the stores (`Stored`), and every step keeps it. -/
theorem stepKeepsStores : Obligations.StepKeepsStores := fun s t hm ht hd hq e =>
  (stored_iff t).mp (((stored_iff s).mpr ⟨hm, ht, hd, hq⟩).step e)

end Sys2Proof.Machine
end

section
/-! O34, O37: the measuring of one tile, and the verdict of an analysis. -/

namespace Sys2Proof.Machine

open Sys2Proof Sys2Proof.Claims

/-! ### The distance of a tile -/

/-- The distance is the sum of the differences of the sixteen means (R54). -/
theorem tileDistance_eq {a b : List Byte} (ha : a.length = 16) (hb : b.length = 16) :
    tileDistance a b = total 16 (fun k => absDiff (a.getD k 0).toNat (b.getD k 0).toNat) := by
  unfold tileDistance total
  congr 1
  refine List.ext_getElem (by simp [ha, hb]) fun k hk _ => ?_
  have hk : k < 16 := by simpa [ha, hb] using hk
  simp [hk, ha, hb]

theorem absDiff_byte_le (a b : Byte) : absDiff a.toNat b.toNat ≤ 255 := by
  have := a.isLt
  have := b.isLt
  unfold absDiff
  omega

theorem total_le {n m : Nat} {f : Nat → Nat} (h : ∀ k, f k ≤ m) : total n f ≤ n * m := by
  have := List.sum_le_card_nsmul ((List.range n).map f) m (fun x hx => by
    obtain ⟨k, -, rfl⟩ := List.mem_map.mp hx
    exact h k)
  simpa [total] using this

/-! ### What measuring does to a record -/

/-- A measured tile is changed (R56 to R58). -/
def FoundChanged (g : DetectSettings) (means : List Byte) (t : TileRec) : Prop :=
  t.state = .reseed ∨ (t.state = .quiet ∧ g.tHi < tileDistance means t.signature) ∨
    (t.state = .active ∧ g.tLo < tileDistance means t.signature)

section
variable {g : DetectSettings} {n : FrameNo} {means : List Byte} {t : TileRec}

theorem measureTile_changed (h : FoundChanged g means t) : measureTile g n means t = (changedTile n means, true) := by
  rcases h with hs | ⟨hs, hd⟩ | ⟨hs, hd⟩
  · simp only [measureTile, hs]
  · simp only [measureTile, hs, if_pos hd]
  · simp only [measureTile, hs, if_pos hd]

theorem measureTile_quiet (h : ¬ FoundChanged g means t) (hs : t.state = .quiet) : measureTile g n means t = (t, false) := by
  have hd : ¬ g.tHi < tileDistance means t.signature := fun hd => h (.inr (.inl ⟨hs, hd⟩))
  simp only [measureTile, hs, if_neg hd]

theorem measureTile_active (h : ¬ FoundChanged g means t) (hs : t.state = .active) : measureTile g n means t =
    (if g.quiet ≤ t.quietRun + 1 then { t with state := .quiet, quietRun := 0 } else { t with quietRun := t.quietRun + 1 }, false) := by
  have hd : ¬ g.tLo < tileDistance means t.signature := fun hd => h (.inr (.inr ⟨hs, hd⟩))
  simp only [measureTile, hs, if_neg hd]
  split <;> rfl

/-- The measurement reports a change exactly when the tile is changed. -/
theorem measureTile_reports : (measureTile g n means t).2 = true ↔ FoundChanged g means t := by
  by_cases h : FoundChanged g means t
  · simp only [measureTile_changed h, h]
  · rcases hs : t.state with _ | _ | _
    · simp only [measureTile_quiet h hs, h, Bool.false_eq_true]
    · simp only [measureTile_active h hs, h, Bool.false_eq_true]
    · exact absurd (.inl hs) h

end

/-! ### One tile's part of a row step -/

section
variable {means : List Byte} {t : Nat} {c : AnalysisCtx} {old : TileRec}

/-- A measured tile's record: what the measurement gives, with the frame's number when the tile is marked (R62). -/
theorem tileStep_fst_measured (h : c.excluded.getLsbD t = false) : (tileStep means t c old).1 =
    { (measureTile c.settings c.number means old).1 with
      lastChanged := if c.marked.getLsbD t = true then some c.number else (measureTile c.settings c.number means old).1.lastChanged } := by
  simp only [tileStep, h, Bool.not_false, if_true]
  split <;> rfl

/-- An excluded tile's record changes only by its mark (R60, R62). -/
theorem tileStep_fst_excluded (h : c.excluded.getLsbD t = true) : (tileStep means t c old).1 =
    { old with lastChanged := if c.marked.getLsbD t = true then some c.number else old.lastChanged } := by
  simp only [tileStep, h, Bool.not_true, Bool.false_eq_true, if_false]
  split <;> rfl

/-- The counts, mask and seen indicator after one tile, given whether it was found changed (R59, R62). -/
theorem tileStep_snd (means : List Byte) (t : Nat) (c : AnalysisCtx) (old : TileRec) : ∃ d : Bool,
    (d = true ↔ c.excluded.getLsbD t = false ∧ FoundChanged c.settings means old) ∧
    (tileStep means t c old).2 = { c with
      changed := c.changed + (if d then 1 else 0)
      active := c.active + (if c.excluded.getLsbD t then 0 else 1)
      mask := if d || c.marked.getLsbD t then c.mask ||| BitVec.twoPow 640 t else c.mask
      attrSeen := c.attrSeen || c.marked.getLsbD t } := by
  cases h : c.excluded.getLsbD t with
  | true => exact ⟨false, by simp, by simp only [tileStep, h]; rfl⟩
  | false =>
    exact ⟨(measureTile c.settings c.number means old).2, by simp only [measureTile_reports, true_and],
      by simp only [tileStep, h]; rfl⟩

end

/-- Settles O34: the distance mean by mean, and the record and context by the tile's exclusion, change and state. -/
theorem tileMeasurement : Obligations.TileMeasurement := by
  refine ⟨fun a b ha hb => ⟨tileDistance_eq ha hb, ?_⟩, fun means t c old => ?_⟩
  · rw [tileDistance_eq ha hb]
    exact total_le (n := 16) (m := 255) fun k => absDiff_byte_le _ _
  intro measured dist changed isMarked out
  have unchanged : ¬ changed → measured → ¬ FoundChanged c.settings means old := fun hn hm hf => hn ⟨hm, hf⟩
  refine ⟨fun ⟨hm, hf⟩ => ?_, fun hn hm hs hq => ?_, fun hn hm hs hq => ?_, fun hn hs => ?_, tileStep_snd means t c old⟩
  · rw [show out.1 = _ from tileStep_fst_measured hm, measureTile_changed hf]
    simp only [changedTile, ite_self]
  · rw [show out.1 = _ from tileStep_fst_measured hm, measureTile_active (unchanged hn hm) hs, if_pos hq]
  · rw [show out.1 = _ from tileStep_fst_measured hm, measureTile_active (unchanged hn hm) hs, if_neg (Nat.not_le.mpr hq)]
  · cases he : c.excluded.getLsbD t with
    | true => exact tileStep_fst_excluded he
    | false =>
      have hs : old.state = .quiet := hs.resolve_left (not_not_intro he)
      rw [show out.1 = _ from tileStep_fst_measured he, measureTile_quiet (unchanged hn he) hs]

/-! ### The verdict -/

theorem baseClass_eq (first : Bool) (changed active percent : Nat) (mask : TileSet) : baseClass first changed active percent mask =
    if first = true ∨ (1 ≤ active ∧ percent * active ≤ changed * 100) then .scene else if mask = 0 then .hold else .patch := by
  simp only [baseClass, Bool.or_eq_true, Bool.and_eq_true, decide_eq_true_eq]

theorem cueEligible_eq (x : Src) (arrival : Stamp) (q : CueRec) :
    cueEligible x arrival q = decide (q.target = x ∧ (arrival - q.stamp).toNat < 2147483648) := by
  simp only [cueEligible, atOrBefore, Bool.decide_and]

section
variable {x : Src} {arrival : Stamp} {cls : FrameClass} {window : Nat} {cues : List CueRec}

/-- With no eligible cue nothing happens to the FIFO. -/
theorem examineCues_none (h : cues.any (cueEligible x arrival) = false) : examineCues x arrival cls window cues = (cues, false, 0) := by
  simp only [examineCues, h, Bool.not_false, if_true]

/-- Every eligible cue is consumed by a frame that is not HOLD (R69). -/
theorem examineCues_consumed (h : cues.any (cueEligible x arrival) = true) (hc : cls ≠ .hold) :
    examineCues x arrival cls window cues = (cues.filter (fun q => !cueEligible x arrival q), true, 0) := by
  simp only [examineCues, h, hc, Bool.not_true, Bool.false_eq_true, if_false]

/-- On a HOLD frame every eligible cue ages by one, and those that reach the window expire and are counted (R70). -/
theorem examineCues_aged (h : cues.any (cueEligible x arrival) = true) : examineCues x arrival .hold window cues =
    (cues.filterMap (fun q => if cueEligible x arrival q = true then
        if window ≤ q.waited + 1 then none else some { q with waited := q.waited + 1 } else some q), false,
      cues.countP (fun q => cueEligible x arrival q && decide (window ≤ q.waited + 1))) := by
  have aged : ∀ q : CueRec, cueEligible x arrival { q with waited := q.waited + 1 } = cueEligible x arrival q := fun _ => rfl
  simp only [examineCues, h, Bool.not_true, Bool.false_eq_true, if_false, if_true]
  refine congrArg₂ Prod.mk ?_ (congrArg (Prod.mk false) ?_)
  · rw [← List.filterMap_eq_filter, List.filterMap_map]
    refine List.filterMap_congr fun q _ => ?_
    cases hq : cueEligible x arrival q with
    | true => by_cases hw : window ≤ q.waited + 1 <;> simp [Option.guard, hq, aged, hw]
    | false => simp [Option.guard, hq]
  · rw [List.countP_map]
    refine List.countP_congr fun q _ => ?_
    cases hq : cueEligible x arrival q <;> simp [hq, aged]

end

/-- Settles O37: no eligible cue, a HOLD frame, and a frame that an eligible cue promotes. -/
theorem verdictOfAnalysis : Obligations.VerdictOfAnalysis := by
  intro c first window cues eligible scene base flags verdict
  have he : cueEligible c.source c.arrival = eligible := funext fun q => cueEligible_eq ..
  have hb : baseClass first c.changed c.active c.settings.percent c.mask = base := baseClass_eq ..
  simp only [verdictOf, hb]
  cases ha : cues.any eligible with
  | false => rw [examineCues_none (by rw [he, ha]), if_pos rfl]; rfl
  | true =>
    rw [if_neg (show ¬ (true = false) from Bool.noConfusion)]
    by_cases hh : base = .hold
    · rw [hh, examineCues_aged (by rw [he, ha]), if_pos rfl, he]
      rfl
    · rw [examineCues_consumed (by rw [he, ha]) hh, if_neg hh, he]
      rfl

end Sys2Proof.Machine
end

section
/-! O36: the bits of a tile set that a loop gathers, and the start of an analysis. -/

namespace Sys2Proof.Machine

open Sys2Proof Sys2Proof.Claims

/-! ### The bits of a tile set -/

theorem getLsbD_mark (m : TileSet) {t i : Nat} (hi : i < 640) :
    (m ||| BitVec.twoPow 640 t).getLsbD i = (m.getLsbD i || decide (i = t)) := by
  simp [hi, eq_comm]

/-- The bits of a set into which a loop over the first n tiles puts the tiles that p names. -/
theorem getLsbD_foldl_mark {f : TileSet → Nat → TileSet} {p : Nat → Bool}
    (hf : ∀ m t, f m t = if p t = true then m ||| BitVec.twoPow 640 t else m) (m : TileSet) (n : Nat) {i : Nat} (hi : i < 640) :
    ((List.range n).foldl f m).getLsbD i = (m.getLsbD i || (decide (i < n) && p i)) := by
  induction n with
  | zero => simp
  | succ n ih =>
    rw [List.range_succ, List.foldl_append, List.foldl_cons, List.foldl_nil, hf]
    by_cases hn : i = n
    · subst hn
      cases hp : p i <;> simp [hp, ih, getLsbD_mark _ hi]
    · have lt_iff : i < n + 1 ↔ i < n := by omega
      cases p n <;> simp [ih, getLsbD_mark _ hi, hn, lt_iff]

theorem getLsbD_exclusionSet (entries : List Attr) (n : Nat) {i : Nat} (hi : i < 640) :
    (exclusionSet entries n).getLsbD i = (decide (i < n) && decide (entries.getD i .none ≠ .none)) := by
  unfold exclusionSet
  rw [getLsbD_foldl_mark (p := fun t => decide (entries.getD t .none ≠ .none)) (fun m t => ?_) _ _ hi]
  · simp
  · by_cases h : entries.getD t .none = .none <;> simp only [h, if_true, if_false, ne_eq, not_true, not_false_iff, decide_true,
      decide_false, Bool.false_eq_true]

theorem getLsbD_gridSet (n : Nat) {i : Nat} (hi : i < 640) : (gridSet n).getLsbD i = decide (i < n) := by
  simp only [gridSet, BitVec.getLsbD_ofNat, Nat.testBit_two_pow_sub_one, hi, decide_true, Bool.true_and]

/-! ### The start of an analysis -/

theorem startAnalysis_takesHead {s : State} {k : Nat} {rest : List Nat} {f : SealedFrame} (hc : s.cd.ctx = none)
    (hq : s.cd.queue = k :: rest) (hk : s.slot k = .queued f) :
    startAnalysis s = placeRequest .det (2 + 16 * s.cols f.source) { s.setSlot k (.analysing f) with
      cd := { s.cd with queue := rest, ctx := some (startCtx s k f), laterWrites := s.cd.laterWrites.set f.source 0 } } := by
  simp only [startAnalysis, hc, hq, hk, detectorRowCost_eq]
  rfl

/-- Settles O36: nothing starts while the detector is BUSY or its queue is empty, and otherwise the context is the start context. -/
theorem analysisStart : Obligations.AnalysisStart := by
  refine ⟨fun s h => h.elim startAnalysis_busy startAnalysis_empty, fun s k rest f hc hq hk => ?_⟩
  intro cols rows
  refine ⟨startCtx s k f, fun t ht => getLsbD_exclusionSet _ _ ht, fun t ht => ?_, rfl,
    startAnalysis_takesHead hc hq (slot_of_getElem? hk)⟩
  simp only [startCtx, BitVec.getLsbD_and, getLsbD_gridSet _ ht]
  exact Bool.and_comm ..

end Sys2Proof.Machine
end

section
/-! O27: the bytes of a mask, and the two modes of FETCH_MASK. -/

namespace Sys2Proof.Machine

open Sys2Proof Sys2Proof.Claims

/-! ### The bytes of a mask -/

theorem length_maskBytes (m : TileSet) : (maskBytes m).length = 80 := by simp [maskBytes]

theorem getLsbD_maskBytes (m : TileSet) {t : Nat} (ht : t < 640) : ((maskBytes m).getD (t / 8) 0).getLsbD (t % 8) = m.getLsbD t := by
  have hk : t / 8 < 80 := by omega
  have hb : t % 8 < 8 := by omega
  have hbyte : (maskBytes m).getD (t / 8) 0 = m.extractLsb' (8 * (t / 8)) 8 := by simp [maskBytes, hk]
  rw [hbyte, BitVec.getLsbD_extractLsb', decide_eq_true hb, Bool.true_and, Nat.div_add_mod]

/-- The tiles above m are those of the grid whose last-changed number is present and above m (R73). -/
theorem getLsbD_sinceMask (s : State) (x : Src) (m : FrameNo) {t : Nat} (ht : t < 640) : (sinceMask s x m).getLsbD t = true ↔
    t < s.cols x * s.rows x ∧ ∃ e n, (s.cd.tiles.get x)[t]? = some e ∧ e.lastChanged = some n ∧ frameBelow m n = true := by
  unfold sinceMask
  rw [getLsbD_foldl_mark (p := fun t => (((s.cd.tiles.get x).getD t TileRec.reset).lastChanged).any (frameBelow m)) (fun m t => ?_)
    _ _ ht, List.getD_eq_getElem?_getD]
  · cases (s.cd.tiles.get x)[t]? with
    | none => simp [TileRec.reset]
    | some e => simp [Option.any_eq_true]
  · cases ((s.cd.tiles.get x).getD t TileRec.reset).lastChanged <;> simp only [Option.any, Bool.false_eq_true, if_false]

/-! ### The request -/

theorem holdOf_eq_none {r : RenditionLane} {k : Nat} (h : ¬ ∃ e, e ∈ r.holds ∧ e.slot = k) : holdOf r k = none :=
  List.find?_eq_none.mpr fun e he hk => h ⟨e, he, of_decide_eq_true hk⟩

theorem holdOf_ne_none {r : RenditionLane} {k : Nat} (h : ∃ e, e ∈ r.holds ∧ e.slot = k) : holdOf r k ≠ none := by
  obtain ⟨e, he, hk⟩ := h
  exact fun hn => List.find?_eq_none.mp hn e he (decide_eq_true hk)

/-- A well-formed FETCH_MASK is a row's when its mode byte is the row's or names no mode. -/
theorem isFetchMask_of_no_mode {r : Request} {k b : Byte} {n : List Byte} (want : MaskMode) (hb : r.kind = 22)
    (hp : r.payload = k :: b :: n) (hn : n.length = 4) (hm : maskModeOf b.toNat = none) : isFetchMask want r = true := by
  have hlen : r.payload.length = 6 := by rw [hp, List.length_cons, List.length_cons, hn]
  have hfield : field (k :: b :: n) 1 1 = b.toNat := field_head b n
  simp only [isFetchMask, isKind_of_suits hb hlen rfl rfl, hp, hfield, hm, Bool.and_self]

section
variable {s : State} {l : RLane} {r : Request} {rest : List Request} {want : MaskMode} {mask : Request → Nat → State → TileSet}

/-- The body of both FETCH_MASK rows. -/
def maskBody (mask : Request → Nat → State → TileSet) (l : RLane) (r : Request) (s : State) : State :=
  maskChecked l r (mask r) s

/-- What a FETCH_MASK row answers, check by check (R89, R102). -/
theorem fetchMask_answers {k b : Byte} {n : List Byte} (h : Ready s (.rl l) r rest) (ht : isFetchMask want r = true)
    (hp : r.payload = k :: b :: n) :
    let held := ∃ e, e ∈ (s.rl.get l).holds ∧ e.slot = k.toNat
    let answers := fun (c : AnswerCode) (data : List Byte) =>
      renditionRequest (isFetchMask want) (.rl l) (maskBody mask) s = .next (reply (.rl l) r rest c data s)
    (s.fpc.plan = none → answers .noPlan []) ∧
    (s.fpc.plan ≠ none → ¬ held → answers .notHeld []) ∧
    (s.fpc.plan ≠ none → held → maskModeOf b.toNat = none → answers .badArg []) ∧
    (s.fpc.plan ≠ none → held → maskModeOf b.toNat ≠ none → answers .ok (maskBytes (mask r k.toNat s))) := by
  intro held answers
  have hslot : field r.payload 0 1 = k.toNat := by rw [hp]; exact field_head k _
  have hmode : field r.payload 1 1 = b.toNat := by rw [hp]; exact field_head b n
  refine ⟨fun hn => renditionRequest_answers h ht ?_, fun hn hh => renditionRequest_answers h ht ?_,
    fun hn hh hm => renditionRequest_answers h ht ?_, fun hn hh hm => renditionRequest_answers h ht ?_⟩
  · simp only [maskBody, maskChecked, hn]
  · obtain ⟨p, hn⟩ := Option.ne_none_iff_exists'.mp hn
    simp only [maskBody, maskChecked, hn, hslot, holdOf_eq_none hh]
  · obtain ⟨p, hn⟩ := Option.ne_none_iff_exists'.mp hn
    obtain ⟨e, hh⟩ := Option.ne_none_iff_exists'.mp (holdOf_ne_none hh)
    simp only [maskBody, maskChecked, hn, hslot, hmode, hh, hm]
  · obtain ⟨p, hn⟩ := Option.ne_none_iff_exists'.mp hn
    obtain ⟨e, hh⟩ := Option.ne_none_iff_exists'.mp (holdOf_ne_none hh)
    obtain ⟨m, hm⟩ := Option.ne_none_iff_exists'.mp hm
    simp only [maskBody, maskChecked, hn, hslot, hmode, hh, hm]

end

theorem maskModeOf_large {b : Byte} (h : 1 < b.toNat) : maskModeOf b.toNat = none := by
  unfold maskModeOf
  split
  · omega
  · omega
  · rfl

theorem beNat_four (a b c d : Byte) : beNat [a, b, c, d] = four a b c d := by
  simp only [beNat, four, two, List.foldl_cons, List.foldl_nil]
  omega

/-- The mask a SINCE request names: that of the slot's source. -/
def sinceBody (r : Request) (k : Nat) (s : State) : TileSet :=
  match slotSource (s.slot k) with
  | some x => sinceMask s x (BitVec.ofNat 32 (field r.payload 2 4))
  | none => 0

theorem execFetchMaskFrame_eq (lane : Lane) (s : State) :
    execFetchMaskFrame lane s = renditionRequest (isFetchMask .frame) lane (maskBody fun _ k s => frameMask s k) s := rfl

theorem execFetchMaskSince_eq (lane : Lane) (s : State) :
    execFetchMaskSince lane s = renditionRequest (isFetchMask .since) lane (maskBody sinceBody) s := rfl

/-- Settles O27: the bytes of a mask bit by bit, and each mode's request check by check. -/
theorem fetchMaskMeaning : Obligations.FetchMaskMeaning := by
  refine ⟨fun m t ht => ⟨length_maskBytes m, getLsbD_maskBytes m ht⟩, ?_, ?_⟩
  · intro s l tag k n3 n2 n1 n0 rest frame since lane held
    refine ⟨fun h => ?_, fun h => ?_⟩
    · obtain ⟨noPlan, notHeld, -, ok⟩ := fetchMask_answers (mask := fun _ k s => frameMask s k) h
        (isFetchMask_of_mode (m := .frame) rfl rfl rfl rfl) rfl
      refine ⟨noPlan, notHeld, fun cur f v ho o hp hh hk => (ok hp hh (by decide)).trans ?_⟩
      simp only [frameMask, slot_of_getElem? hk]
    · obtain ⟨noPlan, notHeld, -, ok⟩ := fetchMask_answers (mask := sinceBody) h
        (isFetchMask_of_mode (m := .since) rfl rfl rfl rfl) rfl
      refine ⟨noPlan, notHeld, fun c x hp hh hk hx =>
        ⟨sinceMask s x (BitVec.ofNat 32 (four n3 n2 n1 n0)), (ok hp hh (by decide)).trans ?_, fun t => getLsbD_sinceMask s x _⟩⟩
      have hfield : field since.payload 2 4 = four n3 n2 n1 n0 := beNat_four n3 n2 n1 n0
      simp only [sinceBody, slot_of_getElem? hk, hx, hfield]
  · intro s l tag k mode n3 n2 n1 n0 rest e r h hmode hp he hk
    have hm := maskModeOf_large hmode
    obtain ⟨-, -, frame, -⟩ := fetchMask_answers (mask := fun _ k s => frameMask s k) h
      (isFetchMask_of_no_mode .frame rfl rfl rfl hm) rfl
    obtain ⟨-, -, since, -⟩ := fetchMask_answers (mask := sinceBody) h (isFetchMask_of_no_mode .since rfl rfl rfl hm) rfl
    exact ⟨frame hp ⟨e, he, hk⟩ hm, since hp ⟨e, he, hk⟩ hm⟩

end Sys2Proof.Machine
end

section
/-! O45: what SET_DETECT, SET_CUE, SET_CADENCE and SET_CHAPTERS answer and change. -/

namespace Sys2Proof.Machine

open Sys2Proof Sys2Proof.Claims

/-! ### The fields of the payloads -/

theorem srcOf_head (b : Byte) (bs : List Byte) : srcOf (field (b :: bs) 0 1) = source b := by
  rw [field_head, srcOf_toNat]

/-- A setting of at least 1 and at most n, where 0 is taken as 1. -/
theorem clamp_byte {n : Nat} (hn : 1 ≤ n) (b : Byte) : max 1 (min b.toNat n) = if b = 0 then 1 else min b.toNat n := by
  split
  · next e => rw [e]; rfl
  · next hb =>
    have := toNat_ne_zero_iff.mpr hb
    omega

/-- A setting of at least 1 whose upper bound every byte meets. -/
theorem clamp_byte_whole (b : Byte) : max 1 (min b.toNat 255) = if b = 0 then 1 else b.toNat := by
  rw [clamp_byte (by decide), Nat.min_eq_left (Nat.le_of_lt_succ b.isLt)]

theorem edgeOf_toNat (g : Byte) : edgeOf g.toNat =
    if g = 0 then some .rising else if g = 1 then some .falling else if g = 2 then some .both else none := by
  have h0 : g = 0 ↔ g.toNat = 0 := by bv_omega
  have h1 : g = 1 ↔ g.toNat = 1 := by bv_omega
  have h2 : g = 2 ↔ g.toNat = 2 := by bv_omega
  simp only [h0, h1, h2]
  match g.toNat with
  | 0 => rfl
  | 1 => rfl
  | 2 => rfl
  | _ + 3 => rfl

theorem detectOf_bytes (b h1 h0 l1 l0 q p : Byte) : detectOf [b, h1, h0, l1, l0, q, p] =
    { tHi := min (two h1 h0) 4080, tLo := min (two l1 l0) (min (two h1 h0) 4080),
      quiet := if q = 0 then 1 else min q.toNat 15, percent := if p = 0 then 1 else min p.toNat 100 } := by
  have hhi : field [b, h1, h0, l1, l0, q, p] 1 2 = two h1 h0 := beNat_pair h1 h0
  have hlo : field [b, h1, h0, l1, l0, q, p] 3 2 = two l1 l0 := beNat_pair l1 l0
  have hq : field [b, h1, h0, l1, l0, q, p] 5 1 = q.toNat := field_head ..
  have hp : field [b, h1, h0, l1, l0, q, p] 6 1 = p.toNat := field_head ..
  simp only [detectOf, hhi, hlo, hq, hp, clamp_byte (n := 15) (by decide), clamp_byte (n := 100) (by decide)]

theorem cueSettingsOf_bytes (e g b sp w : Byte) : cueSettingsOf [e, g, b, sp, w] =
    (edgeOf g.toNat).bind fun k => (source b).map fun x =>
      { enabled := decide (e ≠ 0), edge := k, target := x, spacing := sp.toNat,
        window := if w = 0 then 1 else min w.toNat 15 } := by
  have he : flagAt [e, g, b, sp, w] 0 = decide (e ≠ 0) := by
    simp only [flagAt, field_head, toNat_ne_zero_iff]
  have hg : field [e, g, b, sp, w] 1 1 = g.toNat := field_head ..
  have hb : srcOf (field [e, g, b, sp, w] 2 1) = source b := srcOf_head ..
  have hs : field [e, g, b, sp, w] 3 1 = sp.toNat := field_head ..
  have hw : field [e, g, b, sp, w] 4 1 = w.toNat := field_head ..
  simp only [cueSettingsOf, he, hg, hb, hs, hw, clamp_byte (n := 15) (by decide)]
  cases edgeOf g.toNat <;> cases source b <;> rfl

theorem setCadence_bytes (now : Stamp) (interval : Nat) (k : Byte) : setCadence now interval k.toNat = fun c => { c with
    interval := interval
    stallLimit := if k = 0 then 1 else k.toNat
    timer := if interval = 0 then none else some (now + BitVec.ofNat 32 (interval * 10)) } := by
  funext c
  rw [setCadence, clamp_byte_whole]
  rfl

/-! ### The commands -/

section
variable {p : List Byte} {s : State} {x : Src}

theorem replySetDetect_none (h : srcOf (field p 0 1) = none) : replySetDetect p s = refuse .badArg s := by
  simp only [replySetDetect, h]

theorem replySetDetect_some (h : srcOf (field p 0 1) = some x) : replySetDetect p s =
    done [] { s with cd := { s.cd with settings := s.cd.settings.set x (detectOf p) } } := by
  simp only [replySetDetect, h]

theorem replySetCue_none (h : cueSettingsOf p = none) : replySetCue p s = refuse .badArg s := by
  simp only [replySetCue, h]

theorem replySetCue_some {q : CueSettings} (h : cueSettingsOf p = some q) :
    replySetCue p s = done [] { s with tcu := { s.tcu with cueSettings := q } } := by
  simp only [replySetCue, h]

theorem replySetCadence_none (h : srcOf (field p 0 1) = none) : replySetCadence p s = refuse .badArg s := by
  simp only [replySetCadence, h]

theorem replySetCadence_some (h : srcOf (field p 0 1) = some x) : replySetCadence p s =
    done [] (s.modCadence x (setCadence s.tcu.time (field p 1 2) (field p 3 1))) := by
  simp only [replySetCadence, h]

theorem replySetChapters_none (h : srcOf (field p 0 1) = none) : replySetChapters p s = refuse .badArg s := by
  simp only [replySetChapters, h]

theorem replySetChapters_some (h : srcOf (field p 0 1) = some x) : replySetChapters p s =
    done [] { s with clr := { s.clr with
      chapters := s.clr.chapters.set x { s.clr.chapters.get x with enabled := flagAt p 1, gap := field p 2 2 } } } := by
  simp only [replySetChapters, h]

end

/-- Settles O45: the four commands, each with the source or code it refuses and the settings it replaces. -/
theorem sourceSettingsCommands : Obligations.SourceSettingsCommands := by
  intro s h
  refine ⟨?_, ?_, ?_, ?_⟩
  · intro b h1 h0 l1 l0 q p payload hi taken
    have hb : srcOf (field payload 0 1) = source b := srcOf_head ..
    have ht : detectOf payload = taken := detectOf_bytes ..
    cases hx : source b with
    | none => exact takeCommand_refused h ((ofLength_of_eq rfl _ _).trans (replySetDetect_none (hb.trans hx)))
    | some x =>
      refine takeCommand_done h ((ofLength_of_eq rfl _ _).trans (replySetDetect_some (hb.trans hx))) ?_
      rw [ht]
      rfl
  · intro e g b sp w payload edge
    have hc := cueSettingsOf_bytes e g b sp w
    rw [show edgeOf g.toNat = edge from edgeOf_toNat g] at hc
    cases hk : edge with
    | none =>
      rw [hk] at hc
      exact takeCommand_refused h ((ofLength_of_eq rfl _ _).trans (replySetCue_none hc))
    | some k =>
      cases hx : source b with
      | none =>
        rw [hk, hx] at hc
        exact takeCommand_refused h ((ofLength_of_eq rfl _ _).trans (replySetCue_none hc))
      | some x =>
        rw [hk, hx] at hc
        exact takeCommand_done h ((ofLength_of_eq rfl _ _).trans (replySetCue_some hc)) rfl
  · intro b i1 i0 k payload interval
    have hb : srcOf (field payload 0 1) = source b := srcOf_head ..
    have hi : field payload 1 2 = interval := beNat_pair i1 i0
    have hk : field payload 3 1 = k.toNat := field_head ..
    cases hx : source b with
    | none => exact takeCommand_refused h ((ofLength_of_eq rfl _ _).trans (replySetCadence_none (hb.trans hx)))
    | some x =>
      refine takeCommand_done h ((ofLength_of_eq rfl _ _).trans (replySetCadence_some (hb.trans hx))) ?_
      rw [hi, hk, setCadence_bytes]
      rfl
  · intro b e g1 g0 payload
    have hb : srcOf (field payload 0 1) = source b := srcOf_head ..
    have he : flagAt payload 1 = decide (e ≠ 0) := by
      have : field payload 1 1 = e.toNat := field_head ..
      simp only [flagAt, this, toNat_ne_zero_iff]
    have hg : field payload 2 2 = two g1 g0 := beNat_pair g1 g0
    cases hx : source b with
    | none => exact takeCommand_refused h ((ofLength_of_eq rfl _ _).trans (replySetChapters_none (hb.trans hx)))
    | some x =>
      refine takeCommand_done h ((ofLength_of_eq rfl _ _).trans (replySetChapters_some (hb.trans hx))) ?_
      rw [he, hg]
      rfl

end Sys2Proof.Machine
end

section
/-! O47: what a run of ATTR_WRITE entries makes of entries, tiles, marks and later-write indicators. -/

namespace Sys2Proof.Machine

open Sys2Proof Sys2Proof.Claims

theorem attrOf_toNat (k : Byte) : attrOf k.toNat = if k = 0 then some .none else if k = 1 then some .privacy
    else if k = 2 then some .badge else if k = 3 then some .ignore else none := by
  have h0 : k = 0 ↔ k.toNat = 0 := by bv_omega
  have h1 : k = 1 ↔ k.toNat = 1 := by bv_omega
  have h2 : k = 2 ↔ k.toNat = 2 := by bv_omega
  have h3 : k = 3 ↔ k.toNat = 3 := by bv_omega
  simp only [h0, h1, h2, h3]
  match k.toNat with
  | 0 => rfl
  | 1 => rfl
  | 2 => rfl
  | 3 => rfl
  | _ + 4 => rfl

/-! ### One write -/

/-- The state with a source's entries, tile records, marks and later-write indicators replaced. -/
def attrState (x : Src) (es : List Attr) (ts : List TileRec) (m w : TileSet) (s : State) : State :=
  { s with
    attr := { s.attr with entries := s.attr.entries.set x es }
    cd := { s.cd with
      tiles := s.cd.tiles.set x ts, marks := s.cd.marks.set x m, laterWrites := s.cd.laterWrites.set x w } }

/-- A write of v over old changes the value of a tile of an enabled source. -/
def attrDiffers (s : State) (x : Src) (v old : Attr) : Bool := s.enabled x && decide (old ≠ v)

/-- What one write does to the four stores of its source, in the order of `attrState` (R61, R79). -/
theorem writeAttr_attrState (x : Src) (v : Attr) (t : Nat) (es : List Attr) (ts : List TileRec) (m w : TileSet) (s : State) :
    writeAttr x v t (attrState x es ts m w s) =
      let c := attrDiffers s x v (es.getD t .none)
      attrState x (es.set t v) (if c = true ∧ v = .none then ts.set t (reseedRec (ts.getD t TileRec.reset)) else ts)
        (if c = true then m ||| BitVec.twoPow 640 t else m) (if c = true then w ||| BitVec.twoPow 640 t else w) s := by
  have hold : (attrState x es ts m w s).attr.entries.get x = es := PerSource.get_set_self ..
  have hc : (es.getD t .none = v ∨ (!(attrState x es ts m w s).enabled x) = true) ↔
      ¬ attrDiffers s x v (es.getD t .none) = true := by
    show (_ ∨ (!s.enabled x) = true) ↔ ¬ (s.enabled x && decide (es.getD t .none ≠ v)) = true
    cases s.enabled x <;> simp
  unfold writeAttr
  simp only [hold, hc]
  cases attrDiffers s x v (es.getD t .none) with
  | false => simp only [Bool.false_eq_true, not_false_iff, if_true, if_false, false_and, attrState, PerSource.set_set]
  | true =>
    simp only [not_true, if_true, if_false, true_and, attrState, reseedTile, markTile, PerSource.get_set_self, PerSource.set_set]
    split <;> rfl

/-! ### A run of writes -/

/-- The tiles whose value a run of n writes from first on changes. -/
def attrChanged (s : State) (x : Src) (v : Attr) (first n i : Nat) : Bool :=
  decide (first ≤ i ∧ i < first + n) && s.enabled x && decide ((s.attr.entries.get x).getD i .none ≠ v)

/-- The four stores of a source after n writes from first on. -/
structure AttrRun (s : State) (x : Src) (v : Attr) (first n : Nat) (es : List Attr) (ts : List TileRec) (m w : TileSet) : Prop where
  entries : es.length = 640
  tiles : ts.length = 640
  entry : ∀ i, i < 640 → es.getD i .none =
    if decide (first ≤ i ∧ i < first + n) = true then v else (s.attr.entries.get x).getD i .none
  mark : ∀ i, i < 640 → m.getLsbD i = ((s.cd.marks.get x).getLsbD i || attrChanged s x v first n i)
  laterWrite : ∀ i, i < 640 → w.getLsbD i = ((s.cd.laterWrites.get x).getLsbD i || attrChanged s x v first n i)
  tile : ∀ i, i < 640 → ts[i]? = (s.cd.tiles.get x)[i]?.map fun t =>
    if attrChanged s x v first n i = true ∧ v = .none then { t with state := .reseed, quietRun := 0 } else t

section
variable {s : State} {x : Src} {v : Attr} {first n : Nat} {es : List Attr} {ts : List TileRec} {m w : TileSet}

theorem attrChanged_zero (i : Nat) : attrChanged s x v first 0 i = false := by
  simp only [attrChanged, Nat.add_zero, show ¬ (first ≤ i ∧ i < first) by omega, decide_false, Bool.false_and]

/-- One more write changes one more tile, when its value differs. -/
theorem attrChanged_succ (i : Nat) : attrChanged s x v first (n + 1) i = (attrChanged s x v first n i ||
    (decide (i = first + n) && attrDiffers s x v ((s.attr.entries.get x).getD (first + n) .none))) := by
  by_cases hi : i = first + n
  · subst hi
    simp [attrChanged, attrDiffers]
  · have : (first ≤ i ∧ i < first + (n + 1)) ↔ (first ≤ i ∧ i < first + n) := by omega
    simp [attrChanged, this, hi]

theorem attrChanged_next : attrChanged s x v first n (first + n) = false := by
  simp [attrChanged]

theorem AttrRun.zero (he : (s.attr.entries.get x).length = 640) (ht : (s.cd.tiles.get x).length = 640) :
    AttrRun s x v first 0 (s.attr.entries.get x) (s.cd.tiles.get x) (s.cd.marks.get x) (s.cd.laterWrites.get x) where
  entries := he
  tiles := ht
  entry i _ := by rw [decide_eq_false (by omega)]; rfl
  mark i _ := by rw [attrChanged_zero, Bool.or_false]
  laterWrite i _ := by rw [attrChanged_zero, Bool.or_false]
  tile i _ := by simp [attrChanged_zero]

/-- The next entry still has the value it had. -/
theorem AttrRun.next_entry (h : AttrRun s x v first n es ts m w) (he : (s.attr.entries.get x).length = 640) :
    es.getD (first + n) .none = (s.attr.entries.get x).getD (first + n) .none := by
  by_cases hi : first + n < 640
  · rw [h.entry _ hi, decide_eq_false (by omega)]
    rfl
  · rw [List.getD_eq_default _ _ (by rw [h.entries]; omega), List.getD_eq_default _ _ (by rw [he]; omega)]

/-- A set with the next tile put in when its value differs. -/
theorem getLsbD_attr_next {a b : TileSet} {c : Bool} {i : Nat} (hi : i < 640)
    (h : a.getLsbD i = (b.getLsbD i || attrChanged s x v first n i))
    (hc : c = attrDiffers s x v ((s.attr.entries.get x).getD (first + n) .none)) :
    (if c = true then a ||| BitVec.twoPow 640 (first + n) else a).getLsbD i =
      (b.getLsbD i || attrChanged s x v first (n + 1) i) := by
  rw [attrChanged_succ, ← hc, ← Bool.or_assoc, ← h]
  cases c
  · simp
  · simp only [if_true, getLsbD_mark _ hi, Bool.and_true]

theorem AttrRun.succ (h : AttrRun s x v first n es ts m w) (he : (s.attr.entries.get x).length = 640) :
    let c := attrDiffers s x v (es.getD (first + n) .none)
    AttrRun s x v first (n + 1) (es.set (first + n) v)
      (if c = true ∧ v = .none then ts.set (first + n) (reseedRec (ts.getD (first + n) TileRec.reset)) else ts)
      (if c = true then m ||| BitVec.twoPow 640 (first + n) else m)
      (if c = true then w ||| BitVec.twoPow 640 (first + n) else w) := by
  intro c
  have hc : c = attrDiffers s x v ((s.attr.entries.get x).getD (first + n) .none) :=
    congrArg (attrDiffers s x v) (h.next_entry he)
  refine ⟨by rw [List.length_set, h.entries], ?_, fun i hi => ?_, fun i hi => getLsbD_attr_next hi (h.mark i hi) hc,
    fun i hi => getLsbD_attr_next hi (h.laterWrite i hi) hc, fun i hi => ?_⟩
  · split
    · rw [List.length_set, h.tiles]
    · exact h.tiles
  · by_cases hn : i = first + n
    · subst hn
      simp [h.entries, hi]
    · have : (first ≤ i ∧ i < first + (n + 1)) ↔ (first ≤ i ∧ i < first + n) := by omega
      rw [List.getD_eq_getElem?_getD, List.getElem?_set_ne (Ne.symm hn), ← List.getD_eq_getElem?_getD, h.entry i hi]
      simp only [this]
  · rw [attrChanged_succ, ← hc]
    by_cases hn : i = first + n
    · subst hn
      have same : ts[first + n]? = (s.cd.tiles.get x)[first + n]? := by
        simpa [attrChanged_next] using h.tile _ hi
      rw [attrChanged_next, decide_eq_true rfl, Bool.true_and, Bool.false_or, ← same]
      split
      · simp [h.tiles, hi, reseedRec]
      · simp
    · rw [decide_eq_false hn, Bool.false_and, Bool.or_false, ← h.tile i hi]
      split
      · rw [List.getElem?_set_ne (Ne.symm hn)]
      · rfl

/-- A run of writes changes the four stores of its source and nothing else. -/
theorem foldl_writeAttr (he : (s.attr.entries.get x).length = 640) (ht : (s.cd.tiles.get x).length = 640) (v : Attr)
    (first n : Nat) : ∃ es ts m w, AttrRun s x v first n es ts m w ∧
      (List.range n).foldl (fun s i => writeAttr x v (first + i) s) s = attrState x es ts m w s := by
  induction n with
  | zero =>
    refine ⟨_, _, _, _, .zero he ht, ?_⟩
    simp only [attrState, PerSource.set_get]
    rfl
  | succ n ih =>
    obtain ⟨es, ts, m, w, hrun, hstate⟩ := ih
    refine ⟨_, _, _, _, hrun.succ he, ?_⟩
    rw [List.range_succ, List.foldl_append, hstate]
    exact writeAttr_attrState ..

end

/-! ### The command -/

theorem replyAttrWrite_none {p : List Byte} {s : State} (h : srcOf (field p 0 1) = none ∨ attrOf (field p 5 1) = none) :
    replyAttrWrite p s = refuse .badArg s := by
  unfold replyAttrWrite
  split
  · next hx hv => simp [hx, hv] at h
  · rfl

theorem replyAttrWrite_some {p : List Byte} {s : State} {x : Src} {v : Attr} (hx : srcOf (field p 0 1) = some x)
    (hv : attrOf (field p 5 1) = some v) : replyAttrWrite p s =
      let n := runLength (gridBound s x) (field p 1 2) (field p 3 2)
      done (beBytes 2 n) ((List.range n).foldl (fun s i => writeAttr x v (field p 1 2 + i) s) s) := by
  simp only [replyAttrWrite, hx, hv]

/-- Settles O47: the codes that name nothing, and a run of writes by induction on its length. -/
theorem attrWriteMeaning : Obligations.AttrWriteMeaning := by
  intro s b f1 f0 c1 c0 k h hlen payload value
  have hb : srcOf (field payload 0 1) = source b := srcOf_head ..
  have hk : attrOf (field payload 5 1) = value :=
    (congrArg attrOf (field_head k [])).trans (attrOf_toNat k)
  refine ⟨fun hn => ?_, fun x v hx hv => ?_⟩
  · exact takeCommand_refused h ((ofLength_of_eq rfl _ _).trans (replyAttrWrite_none (hn.imp hb.trans hk.trans)))
  intro bound first n old written changed
  have hfirst : field payload 1 2 = first := beNat_pair f1 f0
  have hcount : field payload 3 2 = two c1 c0 := beNat_pair c1 c0
  obtain ⟨es, ts, m, w, hrun, hstate⟩ := foldl_writeAttr (s := framed 16 payload s) (x := x) (hlen x).1 (hlen x).2 v first n
  refine ⟨es, ts, m, w, ?_, hrun.entries, hrun.tiles, fun i hi =>
    ⟨hrun.entry i hi, hrun.mark i hi, hrun.laterWrite i hi, hrun.tile i hi⟩⟩
  have hreply : commandReply 16 payload (framed 16 payload s) = replyAttrWrite payload (framed 16 payload s) := ofLength_of_eq rfl _ _
  have hwrite : replyAttrWrite payload (framed 16 payload s) = done (beBytes 2 n) (attrState x es ts m w (framed 16 payload s)) := by
    rw [replyAttrWrite_some (hb.trans hx) (hk.trans hv), hfirst, hcount, ← hstate]
    rfl
  exact takeCommand_done h (hreply.trans hwrite) rfl

end Sys2Proof.Machine
end

section
/-! O48: the lines a BADGE_WRITE spells, and the tiles it marks. -/

namespace Sys2Proof.Machine

open Sys2Proof Sys2Proof.Claims

/-! ### A stencil line from its bytes -/

/-- The bits that the first n of eight bytes give. -/
theorem getLsbD_foldl_stencil (bs : List Byte) {n b : Nat} (hb : b < 64) :
    ((List.range n).foldl (fun acc k => acc ||| ((bs.getD k 0).zeroExtend 64 <<< (8 * k))) (0 : BitVec 64)).getLsbD b =
      (decide (b < 8 * n) && (bs.getD (b / 8) 0).getLsbD (b % 8)) := by
  induction n with
  | zero => simp
  | succ n ih =>
    rw [List.range_succ, List.foldl_append, List.foldl_cons, List.foldl_nil, BitVec.getLsbD_or, ih, BitVec.getLsbD_shiftLeft,
      BitVec.zeroExtend, BitVec.getLsbD_setWidth, decide_eq_true hb, decide_eq_true (show b - 8 * n < 64 by omega), Bool.true_and,
      Bool.true_and]
    rcases lt_or_ge b (8 * n) with hlow | hge
    · rw [decide_eq_true hlow, decide_eq_true (show b < 8 * (n + 1) by omega)]
      simp
    · rw [decide_eq_false (by omega : ¬ b < 8 * n)]
      by_cases hin : b < 8 * (n + 1)
      · rw [decide_eq_true hin, show b / 8 = n by omega, show b % 8 = b - 8 * n by omega]
        simp
      · rw [decide_eq_false hin, BitVec.getLsbD_of_ge _ _ (by omega : 8 ≤ b - 8 * n)]
        simp

/-- Bit b of a line is bit b mod 8 of byte b div 8 (R189). -/
theorem getLsbD_stencilLineOf (bs : List Byte) {b : Nat} (hb : b < 64) :
    (stencilLineOf bs).getLsbD b = (bs.getD (b / 8) 0).getLsbD (b % 8) := by
  rw [stencilLineOf, getLsbD_foldl_stencil bs hb, decide_eq_true hb, Bool.true_and]

/-! ### The lines written -/

/-- A run of n writes from first on replaces the entries of the run. -/
theorem getD_foldl_set {α : Type} (f : Nat → α) (d : α) (first n : Nat) (ls : List α) {i : Nat} (hi : i < ls.length) :
    ((List.range n).foldl (fun ls k => ls.set (first + k) (f k)) ls).getD i d =
      if first ≤ i ∧ i < first + n then f (i - first) else ls.getD i d := by
  induction n with
  | zero => rw [if_neg (by omega)]; rfl
  | succ n ih =>
    rw [List.range_succ, List.foldl_append, List.foldl_cons, List.foldl_nil]
    by_cases hn : i = first + n
    · subst hn
      have hlen := foldl_keep List.length (fun ls k => ls.set (first + k) (f k)) (fun _ _ => List.length_set ..) (List.range n) ls
      rw [if_pos (by omega), List.getD_eq_getElem?_getD, List.getElem?_set_self (hlen.symm ▸ hi), Nat.add_sub_cancel_left,
        Option.getD_some]
    · have hsame : (first ≤ i ∧ i < first + (n + 1)) ↔ (first ≤ i ∧ i < first + n) := by omega
      rw [List.getD_eq_getElem?_getD, List.getElem?_set_ne (Ne.symm hn), ← List.getD_eq_getElem?_getD, ih]
      simp only [hsame]

section
variable {first count fg bg : Byte} {data : List Byte}

theorem writtenStencil_values (n : Nat) (t : Stencil) : writtenStencil (first :: count :: fg :: bg :: data) n t =
    { lines := (writtenStencil (first :: count :: fg :: bg :: data) n t).lines, fg := fg, bg := bg } := by
  have hfg : field (first :: count :: fg :: bg :: data) 2 1 = fg.toNat := field_head ..
  have hbg : field (first :: count :: fg :: bg :: data) 3 1 = bg.toNat := field_head ..
  simp only [writtenStencil, hfg, hbg, BitVec.ofNat_toNat, BitVec.setWidth_eq]

/-- Byte j of a payload's line k. -/
theorem line_byte (k : Nat) {j : Nat} (hj : j < 8) :
    (((first :: count :: fg :: bg :: data).drop (4 + 8 * k)).take 8).getD j 0 = data.getD (8 * k + j) 0 := by
  have hdrop : (first :: count :: fg :: bg :: data).drop (4 + 8 * k) = data.drop (8 * k) := by
    rw [← List.drop_drop]
    rfl
  rw [hdrop, List.getD_eq_getElem?_getD, List.getElem?_take_of_lt hj, List.getElem?_drop, ← List.getD_eq_getElem?_getD]

theorem getLsbD_writtenStencil (n : Nat) {t : Stencil} (ht : t.lines.length = 64) {i b : Nat} (hi : i < 64) (hb : b < 64) :
    ((writtenStencil (first :: count :: fg :: bg :: data) n t).lines.getD i 0).getLsbD b =
      if first.toNat ≤ i ∧ i < first.toNat + n then (data.getD (8 * (i - first.toNat) + b / 8) 0).getLsbD (b % 8)
      else (t.lines.getD i 0).getLsbD b := by
  simp only [writtenStencil, field_head]
  rw [getD_foldl_set _ _ _ _ _ (ht.symm ▸ hi)]
  split
  · rw [getLsbD_stencilLineOf _ hb, line_byte _ (by omega)]
  · rfl

end

/-! ### The tiles marked -/

/-- The BADGE tiles of a source that is enabled (R80). -/
def badgeHit (s : State) (x : Src) (t : Nat) : Bool :=
  s.enabled x && (decide (t < s.cols x * s.rows x) && decide ((s.attr.entries.get x).getD t .none = .badge))

/-- The part of `markBadges` that one source gives. -/
def markSource (s : State) (d : Detector) (x : Src) : Detector :=
  if s.enabled x then
    (List.range (s.cols x * s.rows x)).foldl
      (fun d t => if (s.attr.entries.get x).getD t .none = .badge then markTile x t d else d) d
  else d

theorem markBadges_eq (s : State) (d : Detector) : markBadges s d = markSource s (markSource s d .s0) .s1 := rfl

/-- Marking badges replaces marks and later-write indicators alone. -/
theorem markBadges_frame (s : State) (d : Detector) : markBadges s d =
    { d with marks := (markBadges s d).marks, laterWrites := (markBadges s d).laterWrites } :=
  congrArg (fun e : Detector => { e with marks := (markBadges s d).marks, laterWrites := (markBadges s d).laterWrites })
    (markBadges_keeps (fun e => ({ e with marks := d.marks, laterWrites := d.laterWrites } : Detector)) (fun _ _ _ => rfl) s d)

/-- A store of the detector into which marking a tile puts that tile. -/
def TakesMarks (g : Detector → PerSource TileSet) : Prop :=
  ∀ x t d, g (markTile x t d) = (g d).set x ((g d).get x ||| BitVec.twoPow 640 t)

/-- A tile put into a set when its entry is BADGE. -/
def putBadge (es : List Attr) (m : TileSet) (t : Nat) : TileSet :=
  if es.getD t .none = .badge then m ||| BitVec.twoPow 640 t else m

theorem takesMarks_marks : TakesMarks Detector.marks := fun _ _ _ => rfl
theorem takesMarks_laterWrites : TakesMarks Detector.laterWrites := fun _ _ _ => rfl

section
variable {g : Detector → PerSource TileSet} {s : State}

theorem TakesMarks.source_other (hg : TakesMarks g) {x y : Src} (h : y ≠ x) (d : Detector) :
    (g (markSource s d x)).get y = (g d).get y := by
  unfold markSource
  split
  · refine foldl_keep (fun d => (g d).get y) _ (fun d t => ?_) _ _
    split
    · rw [hg, PerSource.get_set_other _ h]
    · rfl
  · rfl

theorem TakesMarks.source_self (hg : TakesMarks g) (x : Src) (d : Detector) {i : Nat} (hi : i < 640) :
    ((g (markSource s d x)).get x).getLsbD i = (((g d).get x).getLsbD i || badgeHit s x i) := by
  unfold markSource badgeHit
  cases s.enabled x with
  | false => simp
  | true =>
    have hput : ∀ d t, putBadge (s.attr.entries.get x) ((g d).get x) t =
        (g (if (s.attr.entries.get x).getD t .none = .badge then markTile x t d else d)).get x := fun d t => by
      unfold putBadge
      split
      · rw [hg, PerSource.get_set_self]
      · rfl
    rw [if_pos rfl, ← List.foldl_hom (fun d => (g d).get x) hput,
      getLsbD_foldl_mark (p := fun t => decide ((s.attr.entries.get x).getD t .none = .badge))
        (fun m t => by simp only [putBadge, decide_eq_true_eq]) _ _ hi, Bool.true_and]

/-- Exactly the BADGE tiles join the marks (R80). -/
theorem TakesMarks.badges (hg : TakesMarks g) (y : Src) (d : Detector) {i : Nat} (hi : i < 640) :
    ((g (markBadges s d)).get y).getLsbD i = (((g d).get y).getLsbD i || badgeHit s y i) := by
  rw [markBadges_eq]
  cases y with
  | s0 => rw [hg.source_other (by decide), hg.source_self _ _ hi]
  | s1 => rw [hg.source_self _ _ hi, hg.source_other (by decide)]

end

/-! ### The command -/

/-- The detector after a BADGE_WRITE that leaves the stencil t. -/
def badgeDetector (t : Stencil) (s : State) : Detector :=
  if t = s.attr.stencil then s.cd else markBadges s s.cd

theorem replyBadgeWrite_eq (p : List Byte) (s : State) : replyBadgeWrite p s =
    let n := min (badgeLineCount p) (64 - field p 0 1)
    let t := writtenStencil p n s.attr.stencil
    done (beBytes 1 n) { s with attr := { s.attr with stencil := t }, cd := badgeDetector t s } := by
  simp only [replyBadgeWrite, badgeDetector]
  split <;> rfl

theorem badgeDetector_frame (t : Stencil) (s : State) : badgeDetector t s =
    { s.cd with marks := (badgeDetector t s).marks, laterWrites := (badgeDetector t s).laterWrites } := by
  unfold badgeDetector
  split
  · rfl
  · exact markBadges_frame s s.cd

theorem TakesMarks.badgeDetector {g : Detector → PerSource TileSet} (hg : TakesMarks g) (t : Stencil) (s : State) (x : Src)
    {i : Nat} (hi : i < 640) : ((g (badgeDetector t s)).get x).getLsbD i =
      (((g s.cd).get x).getLsbD i || (decide (t ≠ s.attr.stencil) && badgeHit s x i)) := by
  unfold Machine.badgeDetector
  by_cases h : t = s.attr.stencil
  · simp only [h, if_true, ne_eq, not_true, decide_false, Bool.false_and, Bool.or_false]
  · simp only [h, if_false, ne_eq, not_false_iff, decide_true, Bool.true_and, hg.badges x s.cd hi]

/-- Settles O48: the stencil's lines bit by bit, and the marks of the tiles that show it. -/
theorem badgeWriteMeaning : Obligations.BadgeWriteMeaning := by
  intro s first count fg bg data h hlines hdata payload n
  have hcount : badgeLineCount payload = min count.toNat 16 := congrArg (min · 16) (field_head count (fg :: bg :: data))
  have hlen : payload.length = 4 + 8 * badgeLineCount payload := by
    show data.length + 4 = _
    rw [hcount, hdata, Nat.add_comm]
  have hn : min (badgeLineCount payload) (64 - field payload 0 1) = n := by
    rw [hcount, field_head]
  have hs := writtenStencil_values (first := first) (count := count) (fg := fg) (bg := bg) (data := data) n s.attr.stencil
  have hreply := replyBadgeWrite_eq payload (framed 18 payload s)
  refine ⟨(writtenStencil payload n s.attr.stencil).lines,
    (badgeDetector (writtenStencil payload n s.attr.stencil) s).marks,
    (badgeDetector (writtenStencil payload n s.attr.stencil) s).laterWrites, ?_, ?_, ?_, ?_⟩
  · rw [hn] at hreply
    rw [← hs, ← badgeDetector_frame]
    exact takeCommand_done h ((ofLength_of_eq hlen _ _).trans hreply) rfl
  · rw [writtenStencil_lines, hlines]
  · exact fun i b => getLsbD_writtenStencil n hlines
  · intro x t ht
    have bits := fun {g : Detector → PerSource TileSet} (hg : TakesMarks g) =>
      hg.badgeDetector (writtenStencil payload n s.attr.stencil) s x ht
    rw [← hs]
    simp only [Bool.and_assoc]
    exact ⟨bits takesMarks_marks, bits takesMarks_laterWrites⟩

end Sys2Proof.Machine
end

section
/-! O35: the measuring of a row tile by tile, and the end of a detector burst. -/

namespace Sys2Proof.Machine

open Sys2Proof Sys2Proof.Claims

/-! ### The sub-block means -/

theorem length_tileMeans (mem : List Host.Cell) (base cols r c : Nat) : (tileMeans mem base cols r c).length = 16 := by
  simp [tileMeans]

/-- Mean k is that of the 256 samples of sub-block k, a half rounded up (R53). -/
theorem getD_tileMeans (mem : List Host.Cell) (base cols r c : Nat) {k : Nat} (hk : k < 16) :
    (tileMeans mem base cols r c).getD k 0 = BitVec.ofNat 8 ((total 16 (fun j => total 16 (fun i =>
      lumaAt mem base cols (64 * c + 16 * (k % 4) + i) (64 * r + 16 * (k / 4) + j))) + 128) / 256) := by
  simp [tileMeans, subBlockMean, subBlockSum, total, hk]

/-! ### What measuring a run of tiles gathers -/

/-- The context after measuring n tiles from first on: the counts, mask and seen indicator alone have moved (R59, R62). -/
structure Gathered (first n : Nat) (c e : AnalysisCtx) : Prop where
  same : e = { c with changed := e.changed, active := e.active, mask := e.mask, attrSeen := e.attrSeen }
  changed : c.changed ≤ e.changed
  found : e.changed + c.active ≤ c.changed + e.active
  active : c.active ≤ e.active
  measured : e.active ≤ c.active + n
  kept : ∀ t, c.mask.getLsbD t = true → e.mask.getLsbD t = true
  gained : ∀ t, e.mask.getLsbD t = true → c.mask.getLsbD t = true ∨ (first ≤ t ∧ t < first + n)

theorem Gathered.refl (first : Nat) (c : AnalysisCtx) : Gathered first 0 c c :=
  ⟨rfl, Nat.le_refl _, Nat.le_refl _, Nat.le_refl _, Nat.le_refl _, fun _ => id, fun _ => .inl⟩

/-- The mask with one more tile, when that tile is changed or marked. -/
theorem getLsbD_gains {m : TileSet} {hit : Bool} {t i : Nat} (h : (if hit then m ||| BitVec.twoPow 640 t else m).getLsbD i = true) :
    m.getLsbD i = true ∨ i = t := by
  cases hit
  · exact .inl h
  · rcases Bool.or_eq_true_iff.mp (by simpa only [if_true, BitVec.getLsbD_or] using h) with h | h
    · exact .inl h
    · rw [BitVec.getLsbD_twoPow, Bool.and_eq_true, decide_eq_true_eq, decide_eq_true_eq] at h
      obtain ⟨-, rfl⟩ := h
      exact .inr rfl

theorem getLsbD_keeps {m : TileSet} {hit : Bool} {t i : Nat} (h : m.getLsbD i = true) :
    (if hit then m ||| BitVec.twoPow 640 t else m).getLsbD i = true := by
  cases hit
  · exact h
  · simp [h]

theorem Gathered.step {first n : Nat} {c e : AnalysisCtx} (h : Gathered first n c e) (means : List Byte) (old : TileRec) :
    Gathered first (n + 1) c (tileStep means (first + n) e old).2 := by
  obtain ⟨d, hd, hstep⟩ := tileStep_snd means (first + n) e old
  have hcount : (if d then 1 else 0) ≤ (if e.excluded.getLsbD (first + n) then 0 else 1) := by
    cases d with
    | false => exact Nat.zero_le _
    | true => simp [(hd.mp rfl).1]
  have hone : (if e.excluded.getLsbD (first + n) then 0 else 1) ≤ 1 := by split <;> omega
  have hchanged := h.changed
  have hfound := h.found
  have hactive := h.active
  have hmeasured := h.measured
  rw [hstep]
  refine ⟨by rw [h.same], by dsimp only; omega, by dsimp only; omega, by dsimp only; omega, by dsimp only; omega,
    fun t ht => getLsbD_keeps (h.kept t ht), fun t ht => ?_⟩
  rcases getLsbD_gains ht with ht | rfl
  · exact (h.gained t ht).imp_right fun ⟨hfirst, hlast⟩ => ⟨hfirst, by omega⟩
  · exact .inr ⟨by omega, by omega⟩

/-- A tile's record depends on what the context has from the start, and not on what it gathers. -/
theorem Gathered.tileStep_fst {first n : Nat} {c e : AnalysisCtx} (h : Gathered first n c e) (means : List Byte) (t : Nat)
    (old : TileRec) : (tileStep means t e old).1 = (tileStep means t c old).1 := by
  rw [h.same]
  rfl

/-! ### A row, column by column -/

/-- The context that the tiles of a row give one after the other, each from its record before the row. -/
def rowContext (means : Nat → List Byte) (first n : Nat) (tiles : List TileRec) (c : AnalysisCtx) : AnalysisCtx :=
  (List.range n).foldl (fun e i => (tileStep (means i) (first + i) e (tiles.getD (first + i) TileRec.reset)).2) c

theorem rowContext_succ (means : Nat → List Byte) (first n : Nat) (tiles : List TileRec) (c : AnalysisCtx) :
    rowContext means first (n + 1) tiles c =
      (tileStep (means n) (first + n) (rowContext means first n tiles c) (tiles.getD (first + n) TileRec.reset)).2 := by
  rw [rowContext, List.range_succ, List.foldl_append]
  rfl

theorem rowContext_gathered (means : Nat → List Byte) (first n : Nat) (tiles : List TileRec) (c : AnalysisCtx) :
    Gathered first n c (rowContext means first n tiles c) := by
  induction n with
  | zero => exact .refl first c
  | succ n ih =>
    rw [rowContext_succ]
    exact ih.step ..

/-- The record that a row of n tiles from first on leaves in place t. -/
def rowRecord (means : Nat → List Byte) (first n : Nat) (c : AnalysisCtx) (t : Nat) (old : TileRec) : TileRec :=
  if first ≤ t ∧ t < first + n then (tileStep (means (t - first)) t c old).1 else old

theorem rowRecord_outside (means : Nat → List Byte) {first n t : Nat} (c : AnalysisCtx) (h : ¬ (first ≤ t ∧ t < first + n)) :
    rowRecord means first n c t = id := funext fun _ => if_neg h

section
variable (mem : List Host.Cell) (base r cols : Nat) (tiles : List TileRec) (c : AnalysisCtx)

/-- Each column measures its own tile, from its record before the row. -/
theorem measureColumns_eq (n : Nat) :
    ((List.range n).foldl (measureColumn mem base r cols) (tiles, c)).2 =
      rowContext (tileMeans mem base cols r) (r * cols) n tiles c ∧
    ∀ t, ((List.range n).foldl (measureColumn mem base r cols) (tiles, c)).1[t]? =
      tiles[t]?.map (rowRecord (tileMeans mem base cols r) (r * cols) n c t) := by
  induction n with
  | zero => exact ⟨rfl, fun t => by rw [rowRecord_outside _ _ (by omega), Option.map_id]; rfl⟩
  | succ n ih =>
    obtain ⟨hctx, htile⟩ := ih
    have hnext : ((List.range n).foldl (measureColumn mem base r cols) (tiles, c)).1[r * cols + n]? = tiles[r * cols + n]? := by
      rw [htile, rowRecord_outside _ _ (by omega), Option.map_id]
      rfl
    have hold : ((List.range n).foldl (measureColumn mem base r cols) (tiles, c)).1.getD (r * cols + n) TileRec.reset =
        tiles.getD (r * cols + n) TileRec.reset := by
      rw [List.getD_eq_getElem?_getD, hnext, List.getD_eq_getElem?_getD]
    rw [List.range_succ, List.foldl_append, List.foldl_cons, List.foldl_nil, measureColumn, hctx, hold]
    refine ⟨(rowContext_succ ..).symm, fun t => ?_⟩
    dsimp only
    rw [(rowContext_gathered ..).tileStep_fst]
    by_cases ht : t = r * cols + n
    · subst ht
      rw [List.getElem?_set_self', hnext, List.getD_eq_getElem?_getD]
      cases tiles[r * cols + n]? with
      | none => rfl
      | some old => simp [rowRecord]
    · have hsame : (r * cols ≤ t ∧ t < r * cols + (n + 1)) ↔ (r * cols ≤ t ∧ t < r * cols + n) := by omega
      have hrecord : rowRecord (tileMeans mem base cols r) (r * cols) (n + 1) c t =
          rowRecord (tileMeans mem base cols r) (r * cols) n c t :=
        funext fun old => by simp only [rowRecord, hsame]
      rw [List.getElem?_set_ne (Ne.symm ht), htile, hrecord]

end

/-- The tiles and the context after a row. -/
theorem measureRow_gives (mem : List Host.Cell) (base r : Nat) (tiles : List TileRec) (c : AnalysisCtx) : ∃ ts : List TileRec,
    measureRow mem base r tiles c = (ts, rowContext (tileMeans mem base c.cols r) (r * c.cols) c.cols tiles c) ∧
    ts.length = tiles.length ∧
    ∀ t, ts[t]? = tiles[t]?.map (rowRecord (tileMeans mem base c.cols r) (r * c.cols) c.cols c t) := by
  obtain ⟨hctx, htile⟩ := measureColumns_eq mem base r c.cols tiles c c.cols
  exact ⟨_, Prod.ext rfl ((congrArg Prod.snd (measureRow_eq ..)).trans hctx), measureRow_length .., htile⟩

/-! ### The end of the burst -/

section
variable {s : State} {b : Burst} {c : AnalysisCtx}

theorem detectorBurst_idle (h : s.rstnLow = false) (hd : s.ms.dram = .burst b) (hj : b.job = .detector)
    (hm : mayComplete s.ms = true) (hc : s.cd.ctx = none) : execDetectorRowBurstComplete s = .next (endBurst s) := by
  simp only [execDetectorRowBurstComplete, running_of_high h, hd, hj, hm, hc, Bool.not_true, Bool.false_eq_true, if_false]

theorem detectorBurst_aborted (h : s.rstnLow = false) (hd : s.ms.dram = .burst b) (hj : b.job = .detector)
    (hm : mayComplete s.ms = true) (hc : s.cd.ctx = some c) (hl : b.live = false) :
    execDetectorRowBurstComplete s = .next (endBurst s) := by
  simp only [execDetectorRowBurstComplete, running_of_high h, hd, hj, hm, hc, hl, Bool.not_true, Bool.not_false,
    Bool.false_eq_true, if_false, if_true]

theorem detectorBurst_measures (h : s.rstnLow = false) (hd : s.ms.dram = .burst b) (hj : b.job = .detector)
    (hm : mayComplete s.ms = true) (hc : s.cd.ctx = some c) (hl : b.live = true)
    (hr : s.rowPlace c.slot c.cols c.nextRow + 64 * c.cols * 64 ≤ 134217728) :
    execDetectorRowBurstComplete s = .next (rowStep c (endBurst s)) := by
  simp only [execDetectorRowBurstComplete, running_of_high h, hd, hj, hm, hc, hl, (inDram_eq_true ..).mpr hr, Bool.not_true,
    Bool.false_eq_true, if_false, if_true]

end

/-- The row step after the burst's end: the tiles of the row, and then the next row's burst or the completion (R51, R71). -/
theorem rowStep_endBurst {c : AnalysisCtx} {s : State} {ts : List TileRec} {e : AnalysisCtx}
    (hq : measureRow s.mem (s.rowPlace c.slot c.cols 0) c.nextRow (s.cd.tiles.get c.source) c = (ts, e)) :
    let d : AnalysisCtx := { e with nextRow := c.nextRow + 1 }
    let v : State := { endBurst s with
      cd := { (endBurst s).cd with tiles := (endBurst s).cd.tiles.set c.source ts, ctx := some d } }
    rowStep c (endBurst s) = if c.nextRow + 1 < c.rows then placeRequest .det (2 + 16 * c.cols) v else completeAnalysis d v := by
  have hplace : (endBurst s).rowPlace c.slot c.cols 0 = s.rowPlace c.slot c.cols 0 := by
    simp only [State.rowPlace, endBurst_fpc]
  have hmeasure : measureRow (endBurst s).mem ((endBurst s).rowPlace c.slot c.cols 0) c.nextRow ((endBurst s).cd.tiles.get c.source) c =
      (ts, e) := by
    rw [endBurst_mem, hplace, endBurst_cd, hq]
  obtain ⟨-, hsource, -, -, hcols, hrows, -, -⟩ : Counted c.cols c e := by
    simpa only [hq] using measureRow_counted s.mem (s.rowPlace c.slot c.cols 0) c.nextRow (s.cd.tiles.get c.source) c
  unfold rowStep
  rw [hmeasure]
  cases e
  dsimp only at hsource hcols hrows ⊢
  subst hsource hcols hrows
  rw [detectorRowCost_eq]

/-- Settles O35: the sub-block means, a burst whose analysis has ended, and a row by induction on its columns. -/
theorem detectorBurstMeaning : Obligations.DetectorBurstMeaning := by
  refine ⟨fun mem base cols r c k hk => ⟨length_tileMeans .., getD_tileMeans _ _ _ _ _ hk⟩, fun s b c h hd hj hroom => ?_⟩
  have hm : mayComplete s.ms = true := (mayComplete_iff s.ms).mpr (by rw [hd]; exact hroom)
  refine ⟨detectorBurst_idle h hd hj hm, fun hc => ⟨detectorBurst_aborted h hd hj hm hc, fun hl hlen hgrid hrange => ?_⟩⟩
  obtain ⟨ts, hq, hts, htile⟩ := measureRow_gives s.mem (s.rowPlace c.slot c.cols 0) c.nextRow (s.cd.tiles.get c.source) c
  have g := rowContext_gathered (tileMeans s.mem (s.rowPlace c.slot c.cols 0) c.cols c.nextRow) (c.nextRow * c.cols) c.cols
    (s.cd.tiles.get c.source) c
  have hend : (c.nextRow + 1) * c.cols = c.nextRow * c.cols + c.cols := Nat.succ_mul ..
  have hfound := g.found
  have hactive := g.active
  rw [hend]
  refine ⟨ts, _, hts.trans hlen, fun t _ => htile t, rfl,
    congrArg (fun e : AnalysisCtx => { e with nextRow := c.nextRow + 1 }) g.same, g.changed, ?_, g.active, g.measured, g.kept, g.gained,
    (detectorBurst_measures h hd hj hm hc hl hrange).trans (congrArg _ (rowStep_endBurst hq))⟩
  dsimp only [rowContext] at hfound hactive ⊢
  omega

end Sys2Proof.Machine
end

section
/-! O30: the composed samples by their tiles' attributes, and the sums of a band line by line. -/

namespace Sys2Proof.Machine

open Sys2Proof Sys2Proof.Claims

/-! ### Composed samples -/

/-- The composed luma sample by the attribute of its tile (R84). -/
theorem composeLuma_eq (v : ReadOut) (x y : Nat) : composeLuma v x y =
    let x := min x (v.width - 1)
    let y := min y (v.height - 1)
    let a := v.attrAt (y / 64) (x / 64)
    if a = .privacy then 16
    else if a = .badge ∧ v.badge = true then stencilLuma v.stencil x y
    else lumaAt v.mem v.base v.cols x y := by
  unfold composeLuma
  dsimp only
  cases v.attrAt (min y (v.height - 1) / 64) (min x (v.width - 1) / 64) <;> simp

theorem ReadOut.half_width (v : ReadOut) : v.width / 2 = 32 * v.cols := by
  unfold ReadOut.width; omega

theorem ReadOut.half_height (v : ReadOut) : v.height / 2 = 32 * v.rows := by
  unfold ReadOut.height; omega

/-- A chroma position lies in the tile of its 32 columns and 32 lines. -/
theorem chroma_tile (n : Nat) : 2 * n / 64 = n / 32 := Nat.mul_div_mul_left n 32 (by decide)

/-- The composed chroma sample by the attribute of its tile (R85). -/
theorem composeChroma_eq (v : ReadOut) (p : ChromaPlane) (x y : Nat) : composeChroma v p x y =
    let x := min x (32 * v.cols - 1)
    let y := min y (32 * v.rows - 1)
    let a := v.attrAt (y / 32) (x / 32)
    if a = .privacy then 128
    else if a = .badge ∧ v.badge = true then 128
    else chromaAt v.mem v.base v.cols p x y := by
  unfold composeChroma
  simp only [v.half_width, v.half_height, chroma_tile]
  cases v.attrAt (min y (32 * v.rows - 1) / 32) (min x (32 * v.cols - 1) / 32) <;> simp

/-- The place of a chroma plane after the luma lines of a tile row: U before V (R1). -/
def planeIndex : ChromaPlane → Nat
  | .u => 0
  | .v => 1

theorem exists_planeIndex {n : Nat} (h : n < 2) : ∃ p, planeIndex p = n := by
  obtain rfl | rfl : n = 0 ∨ n = 1 := by omega
  · exact ⟨.u, rfl⟩
  · exact ⟨.v, rfl⟩

/-- Where a chroma sample of a tile row is stored: past the 64 luma lines and the 32 lines of each plane before its own (R1). -/
theorem chromaAt_eq (mem : List Host.Cell) (base cols : Nat) (p : ChromaPlane) (x y : Nat) : chromaAt mem base cols p x y =
    (readByte mem
      (base + y / 32 * (cols * 6144) + 4096 * cols + planeIndex p * (1024 * cols) + y % 32 * (32 * cols) + x)).toNat := by
  have hluma : 64 * (64 * cols) = 4096 * cols := by omega
  have hhalf : 64 * cols / 2 = 32 * cols := by omega
  have hplane : 32 * (32 * cols) = 1024 * cols := by omega
  cases p with
  | u => simp only [chromaAt, planeIndex, Config.tileBytes, hluma, hhalf, Nat.zero_mul]
  | v => simp only [chromaAt, planeIndex, Config.tileBytes, hluma, hhalf, hplane, Nat.one_mul]

/-! ### The lines of a band -/

/-- `count` lines of `width` values, line after line. -/
def sampleLines (count width : Nat) (value : Nat → Nat → Nat) : List Nat :=
  (List.range count).flatMap fun j => (List.range width).map fun i => value i j

theorem sampleLines_succ (count width : Nat) (value : Nat → Nat → Nat) : sampleLines (count + 1) width value =
    sampleLines count width value ++ (List.range width).map fun i => value i count := by
  simp only [sampleLines, List.range_succ, List.flatMap_append, List.flatMap_singleton]

@[simp] theorem length_sampleLines (count width : Nat) (value : Nat → Nat → Nat) :
    (sampleLines count width value).length = count * width := by
  induction count with
  | zero => simp [sampleLines]
  | succ n ih => rw [sampleLines_succ, List.length_append, ih, List.length_map, List.length_range, Nat.succ_mul]

/-- The places of line j lie before those of the lines after it. -/
theorem place_lt {i j count width : Nat} (hi : i < width) (hj : j < count) : j * width + i < count * width := by
  calc j * width + i < (j + 1) * width := by rw [Nat.succ_mul]; omega
    _ ≤ count * width := Nat.mul_le_mul_right width hj

theorem getElem?_sampleLines {i j count width : Nat} (value : Nat → Nat → Nat) (hi : i < width) (hj : j < count) :
    (sampleLines count width value)[j * width + i]? = some (value i j) := by
  induction count with
  | zero => omega
  | succ n ih =>
    rw [sampleLines_succ]
    by_cases hjn : j < n
    · rw [List.getElem?_append_left (by rw [length_sampleLines]; exact place_lt hi hjn), ih hjn]
    · obtain rfl : j = n := by omega
      rw [List.getElem?_append_right (by simp)]
      simp [hi]

theorem getElem?_past_lines (count width : Nat) (value : Nat → Nat → Nat) (rest : List Nat) (k : Nat) :
    (sampleLines count width value ++ rest)[count * width + k]? = rest[k]? := by
  rw [List.getElem?_append_right (by simp), length_sampleLines, Nat.add_sub_cancel_left]

/-! ### The sums and bytes of a band -/

theorem bandSums_eq (v : ReadOut) (w : Window) (b : Nat) : bandSums v w b =
    sampleLines 8 (outWidth w) (fun i j => lumaSum v w i (8 * b + j)) ++
    sampleLines 4 (outWidth w / 2) (fun i j => chromaSum v w .u i (4 * b + j)) ++
    sampleLines 4 (outWidth w / 2) (fun i j => chromaSum v w .v i (4 * b + j)) := rfl

section
variable (v : ReadOut) (w : Window) (b : Nat)

theorem length_bandSums (h : outWidth w % 2 = 0) : (bandSums v w b).length = 12 * outWidth w := by
  simp only [bandSums_eq, List.length_append, length_sampleLines]
  omega

theorem bandSums_luma {i j : Nat} (hi : i < outWidth w) (hj : j < 8) :
    (bandSums v w b)[j * outWidth w + i]? = some (lumaSum v w i (8 * b + j)) := by
  have hplace := place_lt hi hj
  rw [bandSums_eq, List.append_assoc, List.getElem?_append_left (by rwa [length_sampleLines]), getElem?_sampleLines _ hi hj]

theorem bandSums_chroma (p : ChromaPlane) {i j : Nat} (hi : i < outWidth w / 2) (hj : j < 4) :
    (bandSums v w b)[8 * outWidth w + planeIndex p * (4 * (outWidth w / 2)) + j * (outWidth w / 2) + i]? =
      some (chromaSum v w p i (4 * b + j)) := by
  have hplace := place_lt hi hj
  rw [bandSums_eq, List.append_assoc, Nat.add_assoc, Nat.add_assoc, getElem?_past_lines]
  cases p with
  | u =>
    rw [planeIndex, Nat.zero_mul, Nat.zero_add, List.getElem?_append_left (by rwa [length_sampleLines]),
      getElem?_sampleLines _ hi hj]
  | v => rw [planeIndex, Nat.one_mul, getElem?_past_lines, getElem?_sampleLines _ hi hj]

end

theorem getD_bandBytes {sums : List Nat} {k S : Nat} (d : Nat) (h : sums[k]? = some S) :
    (bandBytes d sums).getD k 0 = BitVec.ofNat 8 (blockMean (d * d) S) := by
  rw [bandBytes, List.getD_eq_getElem?_getD, List.getElem?_map, h, Option.map_some, Option.getD_some]

/-- Settles O30: each byte is the mean of its block sum, and each composed sample is read by its tile's attribute. -/
theorem bandData : Obligations.BandData := by
  intro v w band _ _ _ heven ow out mean luma chroma
  have hluma : luma = composeLuma v := funext₂ fun x y => (composeLuma_eq v x y).symm
  have hchroma (p : ChromaPlane) : chroma (planeIndex p) = composeChroma v p := by
    funext x y
    rw [composeChroma_eq]
    simp only [chromaAt_eq]
    rfl
  refine ⟨(List.length_map ..).trans (length_bandSums v w band heven), fun i j hi hj => ?_, fun plane i j hplane hi hj => ?_⟩
  · rw [hluma]
    exact getD_bandBytes w.d (bandSums_luma v w band hi hj)
  · obtain ⟨p, rfl⟩ := exists_planeIndex hplane
    rw [hchroma]
    exact getD_bandBytes w.d (bandSums_chroma v w band p hi hj)

end Sys2Proof.Machine
end

section
/-! O33: the composed samples read no PRIVACY tile, and the end of a band's burst reads nothing else of the DRAM. -/

namespace Sys2Proof.Machine

open Sys2Proof Sys2Proof.Claims

/-! ### Samples that a band does not read -/

section
variable {v u : ReadOut} {other : List Host.Cell}

/-- A composed luma sample depends on the stored samples of the tiles that are not PRIVACY alone (R86). -/
theorem composeLuma_congr_mem (hcols : 1 ≤ v.cols) (hrows : 1 ≤ v.rows)
    (h : ∀ i j, i < 64 * v.cols → j < 64 * v.rows → v.attrAt (j / 64) (i / 64) ≠ .privacy →
      lumaAt v.mem v.base v.cols i j = lumaAt other v.base v.cols i j) :
    composeLuma { v with mem := other } = composeLuma v := by
  funext x y
  have hx : min x (v.width - 1) < 64 * v.cols := by unfold ReadOut.width; omega
  have hy : min y (v.height - 1) < 64 * v.rows := by unfold ReadOut.height; omega
  rw [composeLuma_eq, composeLuma_eq]
  refine ite_congr rfl (fun _ => rfl) fun hshown => ?_
  rw [h _ _ hx hy hshown]
  rfl

/-- A composed chroma sample depends on the stored samples of the tiles that are not PRIVACY alone (R86). -/
theorem composeChroma_congr_mem (hcols : 1 ≤ v.cols) (hrows : 1 ≤ v.rows)
    (h : ∀ p i j, i < 32 * v.cols → j < 32 * v.rows → v.attrAt (j / 32) (i / 32) ≠ .privacy →
      chromaAt v.mem v.base v.cols p i j = chromaAt other v.base v.cols p i j) :
    composeChroma { v with mem := other } = composeChroma v := by
  funext p x y
  have hx : min x (32 * v.cols - 1) < 32 * v.cols := by omega
  have hy : min y (32 * v.rows - 1) < 32 * v.rows := by omega
  rw [composeChroma_eq, composeChroma_eq]
  refine ite_congr rfl (fun _ => rfl) fun hshown => ?_
  rw [h p _ _ hx hy hshown]
  rfl

/-- The sums of a band are made of composed samples alone. -/
theorem bandSums_congr (hluma : composeLuma u = composeLuma v) (hchroma : composeChroma u = composeChroma v) (w : Window) (b : Nat) :
    bandSums u w b = bandSums v w b := by
  simp only [bandSums_eq, lumaSum, chromaSum, hluma, hchroma]

end

/-! ### What follows a burst reads nothing of the DRAM -/

/-- The state with another DRAM. -/
def State.withMem (s : State) (m : List Host.Cell) : State := { s with mem := m }

section
variable (s : State) (m : List Host.Cell)

@[simp] theorem State.withMem_rstnLow : (s.withMem m).rstnLow = s.rstnLow := rfl
@[simp] theorem State.withMem_band : (s.withMem m).band = s.band := rfl
@[simp] theorem State.withMem_ms : (s.withMem m).ms = s.ms := rfl
@[simp] theorem State.withMem_slot (k : Nat) : (s.withMem m).slot k = s.slot k := rfl
@[simp] theorem State.withMem_cols (x : Src) : (s.withMem m).cols x = s.cols x := rfl
@[simp] theorem State.withMem_rows (x : Src) : (s.withMem m).rows x = s.rows x := rfl
@[simp] theorem State.withMem_rowPlace (k cols r : Nat) : (s.withMem m).rowPlace k cols r = s.rowPlace k cols r := rfl

@[simp] theorem jobOf_withMem (r : Requester) : jobOf (s.withMem m) r = jobOf s r := by
  cases r <;> rfl

theorem beginBand_withMem (r : Requester) : beginBand r (s.withMem m) = (beginBand r s).withMem m := by
  cases r <;> rfl

theorem makeGrant_withMem : makeGrant (s.withMem m) = (makeGrant s).withMem m := by
  unfold makeGrant
  simp only [State.withMem_ms, jobOf_withMem]
  split
  · split
    · rfl
    · next r _ =>
      split
      · rfl
      · next c _ => exact beginBand_withMem { s with ms := chargeGrant s.ms r c (jobOf s r) } m r
  · rfl

theorem endBurst_withMem : endBurst (s.withMem m) = (endBurst s).withMem m :=
  makeGrant_withMem { s with ms := dramFree s.ms } m

end

/-- The end of a band's burst reads of the DRAM what the finished band holds, and nothing else. -/
theorem execBandBurstComplete_withMem {s t : State} {p : BandInProgress} {x : Src} {m : List Host.Cell} (hp : s.band = some p)
    (hx : slotSource (s.slot p.slot) = some x) (hband : finishedBand (s.withMem m) p x = finishedBand s p x)
    (h : execBandBurstComplete s = .next t) : execBandBurstComplete (s.withMem m) = .next (t.withMem m) := by
  revert h
  unfold execBandBurstComplete running
  simp only [State.withMem_rstnLow, State.withMem_band, State.withMem_ms, State.withMem_slot, State.withMem_cols,
    State.withMem_rows, State.withMem_rowPlace, hp]
  split
  · rintro ⟨⟩; rfl
  · split
    · split
      · next l _ =>
        split
        · rintro ⟨⟩; rfl
        · split
          · next hq =>
            cases hq
            simp only [hx, hband]
            split
            · rintro ⟨⟩
              exact congrArg _ (endBurst_withMem (bufferBand l (finishedBand s p x) { s with band := none }) m)
            · rintro ⟨⟩
          · rintro ⟨⟩
            exact congrArg _ (endBurst_withMem { s with band := none } m)
      · rintro ⟨⟩; rfl
    · rintro ⟨⟩; rfl

/-- Settles O33: the finished band is made of composed samples, and none of them is stored in a tile that is PRIVACY. -/
theorem privateSamplesNeverRead : Obligations.PrivateSamplesNeverRead := by
  intro s t p x other hp hx hcols hrows base shown hluma hchroma h
  have hsums : bandSums { readOutOf s p x with mem := other } p.window p.index = bandSums (readOutOf s p x) p.window p.index :=
    bandSums_congr (composeLuma_congr_mem hcols hrows hluma) (composeChroma_congr_mem hcols hrows hchroma) ..
  have hband : finishedBand (s.withMem other) p x = finishedBand s p x :=
    congrArg (fun sums => Band.mk p.tag p.slot p.index (bandBytes p.window.d (List.zipWith (· + ·) p.sums sums))) hsums
  exact execBandBurstComplete_withMem hp hx hband h

end Sys2Proof.Machine
end

section
/-! O12: an event's way through the channels that it fires: to the lanes, to the management marker queue and to the marker lines. -/

namespace Sys2Proof.Machine

open Sys2Proof Sys2Proof.Claims

/-! ### The channels that fire -/

theorem firing_eq (e : Event) (gs : List Generator) :
    firing e gs = (List.range 6).filter fun c => generatorNames (gs.getD c .off) e := by
  refine List.filter_congr fun c _ => ?_
  cases gs.getD c .off <;> simp [generatorNames]

theorem fireChannel_generators (c : Nat) (e : Event) (s : State) : (fireChannel c e s).clr.generators = s.clr.generators :=
  congrArg (fun v => v.router.generators) (settings_fireChannel c e s)

/-- The channels fire one after another, and no firing changes which channels the event fires. -/
theorem fireEvent_eq_foldl (e : Event) (s : State) :
    fireEvent e s = (firing e s.clr.generators).foldl (fun s c => fireChannel c e s) s := by
  rw [firing_eq]
  unfold fireEvent
  generalize List.range 6 = cs
  induction cs generalizing s with
  | nil => rfl
  | cons c cs ih =>
    rw [List.foldl_cons, List.filter_cons, ih]
    split
    · rw [List.foldl_cons, fireChannel_generators]
    · rfl

/-! ### The lanes -/

/-- A rendition lane after some channels have fired: a MARKER notice for each one that it subscribes to (R105, R164). -/
def marksLane (e : Event) (cs : List Nat) (r : RenditionLane) : RenditionLane :=
  (cs.filter fun c => r.subs.getLsbD c).foldl (fun r c => noticed (.marker c e) r) r

theorem noticed_subs (n : Notice) (r : RenditionLane) : (noticed n r).subs = r.subs := by
  unfold noticed
  split <;> rfl

theorem marksLane_cons (e : Event) (c : Nat) (cs : List Nat) (r : RenditionLane) :
    marksLane e (c :: cs) r = marksLane e cs (if r.subs.getLsbD c then noticed (.marker c e) r else r) := by
  unfold marksLane
  rw [List.filter_cons]
  split
  · rw [List.foldl_cons, noticed_subs]
  · rfl

theorem fireChannel_eq (c : Nat) (e : Event) (s : State) : fireChannel c e s =
    { mapRl (fun _ r => if r.subs.getLsbD c then noticed (.marker c e) r else r) s with
      clr := routeFiring s.tcu.time c e s.clr } := by
  have hlane : ∀ (u : State) (l : RLane), (if (u.rl.get l).subs.getLsbD c then placeNotice l (.marker c e) u else u) =
      u.modRl l fun r => if r.subs.getLsbD c then noticed (.marker c e) r else r := fun u l => by
    rw [placeNotice_eq, modRl_if]
    rfl
  simp only [fireChannel, hlane]
  rfl

/-- The firings of an event: its marks on the lanes, and the router's part of each firing. -/
theorem foldl_fireChannel (e : Event) (cs : List Nat) (s : State) : cs.foldl (fun s c => fireChannel c e s) s =
    { mapRl (fun _ => marksLane e cs) s with clr := cs.foldl (fun r c => routeFiring s.tcu.time c e r) s.clr } := by
  induction cs generalizing s with
  | nil => rfl
  | cons c cs ih =>
    have hlane : marksLane e (c :: cs) = fun r => marksLane e cs (if r.subs.getLsbD c then noticed (.marker c e) r else r) :=
      funext (marksLane_cons e c cs)
    rw [List.foldl_cons, ih, fireChannel_eq, hlane]
    rfl

/-! ### The router -/

/-- The management marker queue after some channels have fired (R166). -/
def marksQueue (e : Event) (cs : List Nat) (c : Router) : Router :=
  (cs.filter fun n => c.mgmtSubs.getLsbD n).foldl (fun c n => marked n e c) c

theorem pushMarker_eq (n : Nat) (e : Event) (c : Router) : pushMarker n e c = marked n e c := by
  simp only [pushMarker, marked, List.drop_one]
  rfl

theorem marked_mgmtSubs (n : Nat) (e : Event) (c : Router) : (marked n e c).mgmtSubs = c.mgmtSubs := by
  unfold marked
  dsimp only
  split <;> rfl

/-- The marker lines are nothing to the management marker queue. -/
theorem marked_lines (n : Nat) (e : Event) (c : Router) (a b : MarkerLine) :
    marked n e { c with m0 := a, m1 := b } = { marked n e c with m0 := a, m1 := b } := by
  unfold marked
  dsimp only
  split <;> rfl

/-- A marker line after some channels have fired: a firing of its own channel brings it HIGH when it is enabled (R168). -/
def marksLine (now : Stamp) (own : Nat) (cs : List Nat) (m : MarkerLine) : MarkerLine :=
  if own ∈ cs ∧ m.enabled = true then { m with high := some (later now m.width) } else m

theorem marksLine_concat (now : Stamp) (own : Nat) (cs : List Nat) (n : Nat) (m : MarkerLine) :
    marksLine now own (cs ++ [n]) m =
      if own = n then pulseLine now (marksLine now own cs m) else marksLine now own cs m := by
  by_cases he : m.enabled = true
  · by_cases hc : own ∈ cs
    · simp [marksLine, pulseLine, he, hc]
    · simp [marksLine, pulseLine, he, hc]
  · simp [marksLine, pulseLine, he]

theorem marksQueue_concat (e : Event) (cs : List Nat) (n : Nat) (c : Router) :
    marksQueue e (cs ++ [n]) c =
      if (marksQueue e cs c).mgmtSubs.getLsbD n then marked n e (marksQueue e cs c) else marksQueue e cs c := by
  have hsubs : (marksQueue e cs c).mgmtSubs = c.mgmtSubs :=
    foldl_keep Router.mgmtSubs _ (fun c n => marked_mgmtSubs n e c) _ c
  rw [hsubs]
  unfold marksQueue
  cases hn : c.mgmtSubs.getLsbD n <;> simp [hn]

/-- One firing's part for the router, the queue and the lines each by themselves (R164). -/
theorem routeFiring_lines (now : Stamp) (n : Nat) (e : Event) (c : Router) (a b : MarkerLine) :
    routeFiring now n e { c with m0 := a, m1 := b } =
      { (if c.mgmtSubs.getLsbD n then marked n e c else c) with
        m0 := if 0 = n then pulseLine now a else a
        m1 := if 1 = n then pulseLine now b else b } := by
  unfold routeFiring
  rw [pushMarker_eq, marked_lines]
  match n with
  | 0 => split <;> rfl
  | 1 => split <;> rfl
  | n + 2 => split <;> rfl

/-- The router after some channels have fired, the queue and the lines each by themselves. -/
theorem foldl_routeFiring (now : Stamp) (e : Event) (cs : List Nat) (c : Router) :
    cs.foldl (fun r n => routeFiring now n e r) c =
      { marksQueue e cs c with m0 := marksLine now 0 cs c.m0, m1 := marksLine now 1 cs c.m1 } := by
  induction cs using List.reverseRecOn with
  | nil => simp [marksQueue, marksLine]
  | append_singleton cs n ih =>
    rw [List.foldl_append, ih, marksQueue_concat, marksLine_concat, marksLine_concat]
    exact routeFiring_lines ..

/-! ### The event -/

/-- What an event does, written out: its marks on the lanes, in the management marker queue and on the marker lines. -/
theorem fireEvent_eq (e : Event) (s : State) : fireEvent e s =
    let cs := firing e s.clr.generators
    { mapRl (fun _ => marksLane e cs) s with
      clr := { marksQueue e cs s.clr with
        m0 := marksLine s.tcu.time 0 cs s.clr.m0, m1 := marksLine s.tcu.time 1 cs s.clr.m1 } } := by
  rw [fireEvent_eq_foldl, foldl_fireChannel, foldl_routeFiring]

/-- Settles O12: the channels that fire are fixed at the start, and each lane, the queue and the lines take their own part of them. -/
theorem eventRouting : Obligations.EventRouting := by
  intro s e
  refine ⟨_, fireEvent_eq e s, fun l => ?_, rfl⟩
  exact mapRl_get (fun _ => marksLane e (firing e s.clr.generators)) s l

end Sys2Proof.Machine
end

section
/-! O42: what a cadence expiry does. -/

namespace Sys2Proof.Machine

open Sys2Proof Sys2Proof.Claims

/-! ### Repeats and stalls -/

theorem sendRepeats_eq (x : Src) (n : FrameNo) (count : Count16) (s : State) : sendRepeats x n count s =
    mapRl (fun l r => if s.boundTo l x then noticed (.repeated x n count) r else r) s := by
  simp only [sendRepeats, placeNotice_eq, modRl_if]
  rfl

/-- An event reads nothing of the cadence records. -/
theorem fireEvent_modCadence (e : Event) (x : Src) (f : Cadence → Cadence) (s : State) :
    fireEvent e (s.modCadence x f) = (fireEvent e s).modCadence x f := by
  rw [fireEvent_eq, fireEvent_eq]
  rfl

/-- A cadence record changed twice. -/
theorem modCadence_modCadence (x : Src) (f g : Cadence → Cadence) (s : State) :
    (s.modCadence x f).modCadence x g = s.modCadence x fun c => g (f c) := by
  simp only [State.modCadence, PerSource.get_set_self, PerSource.set_set]

theorem modCadence_congr {x : Src} {f g : Cadence → Cadence} {s : State} (h : f (s.tcu.cadence.get x) = g (s.tcu.cadence.get x)) :
    s.modCadence x f = s.modCadence x g := by
  simp only [State.modCadence, h]

/-- An expiry finds K or more expiries counted and the STALLED condition clear (R148). -/
abbrev Stalls (c : Cadence) : Prop := c.stallLimit ≤ c.repeats.toNat ∧ c.stalled = false

/-- The stall check sets the condition and raises its event; that a change of the cadence record comes after the event or before it
makes no difference. -/
theorem checkStall_modCadence (x : Src) (n : FrameNo) (g : Cadence → Cadence) (s : State) :
    let u := s.modCadence x fun c => g { c with stalled := c.stalled || decide (Stalls c) }
    (checkStall x n s).modCadence x g =
      if Stalls (s.tcu.cadence.get x) then fireEvent { kind := .stalled, source := some x, frame := some n } u else u := by
  intro u
  simp only [checkStall, Bool.not_eq_eq_eq_not, Bool.not_true]
  by_cases h : Stalls (s.tcu.cadence.get x)
  · rw [if_pos h, if_pos h, ← fireEvent_modCadence, modCadence_modCadence]
    exact congrArg _ (modCadence_congr (by rw [decide_eq_true h, Bool.or_true]))
  · rw [if_neg h, if_neg h]
    exact modCadence_congr (by rw [decide_eq_false h, Bool.or_false])

/-! ### The expiry -/

theorem execCadenceExpiry_stopped {s : State} (h : s.rstnLow = false) {x : Src} (ht : (s.tcu.cadence.get x).timer = none) :
    execCadenceExpiry x s = .next s := by
  rw [execCadenceExpiry, running_of_high h]
  simp only [ht]

theorem execCadenceExpiry_early {s : State} (h : s.rstnLow = false) {x : Src} {t : Stamp}
    (ht : (s.tcu.cadence.get x).timer = some t) (hd : 2147483648 ≤ (s.tcu.time - t).toNat) : execCadenceExpiry x s = .next s := by
  rw [execCadenceExpiry, running_of_high h]
  simp only [ht, atOrBefore_iff, Nat.not_lt.mpr hd, if_false]

/-- A deadline reached without a CURRENT frame restarts the timer alone (R147). -/
theorem execCadenceExpiry_empty {s : State} (h : s.rstnLow = false) {x : Src} {t : Stamp}
    (ht : (s.tcu.cadence.get x).timer = some t) (hd : (s.tcu.time - t).toNat < 2147483648) (hf : s.currentFrame x = none) :
    execCadenceExpiry x s = .next (s.modCadence x fun c => { c with timer := some (later t (c.interval * 10)) }) := by
  rw [execCadenceExpiry, running_of_high h]
  simp only [ht, atOrBefore_iff, hd, if_true, hf]

theorem execCadenceExpiry_repeats {s : State} (h : s.rstnLow = false) {x : Src} {t : Stamp}
    (ht : (s.tcu.cadence.get x).timer = some t) (hd : (s.tcu.time - t).toNat < 2147483648) {f : SealedFrame}
    (hf : s.currentFrame x = some f) : execCadenceExpiry x s =
      .next ((repeatFrame x f.number s).modCadence x fun c => { c with timer := some (later t (c.interval * 10)) }) := by
  rw [execCadenceExpiry, running_of_high h]
  simp only [ht, atOrBefore_iff, hd, if_true, hf]

/-- Settles O42: nothing happens before the deadline; at it the repeat goes out, the stall check follows, and the timer restarts. -/
theorem cadenceExpiryMeaning : Obligations.CadenceExpiryMeaning := by
  intro s x h cad
  refine ⟨execCadenceExpiry_stopped h, fun t => execCadenceExpiry_early h, ?_⟩
  intro t ht hd next
  refine ⟨fun hf => ?_, fun f hf => ?_⟩
  · exact (execCadenceExpiry_empty h ht hd hf).trans rfl
  · intro count stall rep sums after u
    refine (execCadenceExpiry_repeats h ht hd hf).trans (congrArg Host.Outcome.next ?_)
    rw [repeatFrame, sendRepeats_eq, checkStall_modCadence]
    simp only [mapRl, State.modCounters, State.modCadence, PerSource.get_set_self, PerSource.set_set]
    rfl

end Sys2Proof.Machine
end

section
/-! O23, O24, O25: the common checks of a claim, and what each kind of claim takes or answers. -/

namespace Sys2Proof.Machine

open Sys2Proof Sys2Proof.Claims

/-! ### The common checks -/

/-- A well-formed CLAIM is every row's when its kind byte names no kind. -/
theorem isClaim_of_no_kind {r : Request} {b : Byte} {n : List Byte} (want : ClaimKind) (hb : r.kind = 19)
    (hp : r.payload = b :: n) (hn : n.length = 4) (hk : claimKindOf b.toNat = none) : isClaim want r = true := by
  have hlen : r.payload.length = 5 := by rw [hp, List.length_cons, hn]
  simp only [isClaim, isKind_of_suits hb hlen rfl rfl, hp, field_head, hk, Bool.and_self]

theorem claimKindOf_large {b : Byte} (h : 2 < b.toNat) : claimKindOf b.toNat = none := by
  unfold claimKindOf
  split
  · omega
  · omega
  · omega
  · rfl

/-- The rest of the queue with another request before it is ready in the same way. -/
theorem ready_requeue {s : State} {l : RLane} {r : Request} {rest : List Request} (h : Ready s (.rl l) r rest) (q : Request) :
    Ready (s.modLink (.rl l) fun k => { k with queue := q :: rest }) (.rl l) q rest := by
  obtain ⟨hlow, hbusy, -⟩ := h
  refine ⟨hlow, ?_, by rw [State.link_modLink_self]⟩
  simp only [laneBusy, State.modLink, State.modRl_rl, PerRL.get_set_self]
  exact hbusy

section
variable {s : State} {l : RLane} {r : Request} {rest : List Request} {want : ClaimKind}
  {body : RLane → Request → Binding → State → State}

/-- The body of the three claim rows. -/
def claimRow (body : RLane → Request → Binding → State → State) (l : RLane) (r : Request) (s : State) : State :=
  claimChecked l r (body l r) s

/-- What a claim row of a known kind answers by the common checks, and what it does after them (R89). -/
theorem claim_answers {b : Byte} {n : List Byte} (h : Ready s (.rl l) r rest) (hb : r.kind = 19) (hp : r.payload = b :: n)
    (hn : n.length = 4) (hk : claimKindOf b.toNat = some want) :
    let claim := renditionRequest (isClaim want) (.rl l) (claimRow body) s
    let answers := fun (c : AnswerCode) => claim = .next (reply (.rl l) r rest c [] s)
    (s.fpc.plan = none → answers .noPlan) ∧
    (s.fpc.plan ≠ none → (s.rl.get l).binding = none → answers .notBound) ∧
    (∀ b, s.fpc.plan ≠ none → (s.rl.get l).binding = some b → 2 ≤ (s.rl.get l).holds.length → answers .holdLimit) ∧
    (∀ b, s.fpc.plan ≠ none → (s.rl.get l).binding = some b → (s.rl.get l).holds.length < 2 → claim = .next (body l r b s)) := by
  intro claim answers
  have ht := isClaim_of_kind hb hp hn hk
  have hkind : claimKindOf (field r.payload 0 1) = some want := by rw [hp, field_head, hk]
  refine ⟨fun hn => renditionRequest_answers h ht ?_, fun hn hb => renditionRequest_answers h ht ?_,
    fun b hn hb hl => renditionRequest_answers h ht ?_, fun b hn hb hl => (renditionRequest_ready h ht _).trans ?_⟩
  · simp only [claimRow, claimChecked, hn]
  · obtain ⟨p, hn⟩ := Option.ne_none_iff_exists'.mp hn
    simp only [claimRow, claimChecked, hn, hkind, hb]
  · obtain ⟨p, hn⟩ := Option.ne_none_iff_exists'.mp hn
    simp only [claimRow, claimChecked, hn, hkind, hb, Config.holdDepth, hl, if_true]
  · obtain ⟨p, hn⟩ := Option.ne_none_iff_exists'.mp hn
    simp only [claimRow, claimChecked, hn, hkind, hb, Config.holdDepth, Nat.not_le.mpr hl, if_false]

/-- A claim row answers BAD_ARG to a kind byte that names no kind (R89). -/
theorem claim_bad_kind {b : Byte} {n : List Byte} (h : Ready s (.rl l) r rest) (hb : r.kind = 19) (hp : r.payload = b :: n)
    (hn : n.length = 4) (hk : claimKindOf b.toNat = none) (hplan : s.fpc.plan ≠ none) :
    renditionRequest (isClaim want) (.rl l) (claimRow body) s = .next (reply (.rl l) r rest .badArg [] s) := by
  refine renditionRequest_answers h (isClaim_of_no_kind want hb hp hn hk) ?_
  obtain ⟨p, hplan⟩ := Option.ne_none_iff_exists'.mp hplan
  simp only [claimRow, claimChecked, hplan, hp, field_head, hk]

end

theorem execClaimNext_eq (lane : Lane) (s : State) :
    execClaimNext lane s = renditionRequest (isClaim .next) lane (claimRow fun l r => nextBody l r.tag) s := rfl

theorem execClaimLatest_eq (lane : Lane) (s : State) :
    execClaimLatest lane s = renditionRequest (isClaim .latest) lane (claimRow fun l _ => latestBody l) s := rfl

theorem execClaimNumber_eq (lane : Lane) (s : State) : execClaimNumber lane s =
    renditionRequest (isClaim .number) lane (claimRow fun l r => numberBody l (BitVec.ofNat 32 (field r.payload 1 4))) s := rfl

/-! ### Marks -/

/-- A number is above a mark that stands below it in the wrap-safe order, and above an absent one (R96, R98). -/
theorem aboveMark_iff {mark : Option FrameNo} {n : FrameNo} : aboveMark mark n = true ↔
    mark = none ∨ ∃ m, mark = some m ∧ m ≠ n ∧ (n - m).toNat < 2147483648 := by
  cases mark with
  | none => simp [aboveMark]
  | some m => simp [aboveMark, frameBelow]

theorem atOrBelowMark_iff {mark : Option FrameNo} {n : FrameNo} : atOrBelowMark mark n = true ↔
    ∃ m, mark = some m ∧ (m - n).toNat < 2147483648 := by
  cases mark with
  | none => simp [atOrBelowMark]
  | some m => simp [atOrBelowMark, frameAtMost]

theorem claimable_eq (x : Src) (mark : Option FrameNo) : claimable x mark = fun c => match c with
    | .analysed _ f _ _ _ => decide (f.source = x) && (match mark with
      | some m => frameBelow m f.number
      | none => true)
    | _ => false := by
  funext c
  cases c with
  | analysed cur f v h o => cases mark <;> rfl
  | _ => rfl

theorem claimable_numbered (x : Src) (mark : Option FrameNo) (slots : List Slot) : Claims.Numbered (claimable x mark) slots := by
  intro c _ hp
  obtain ⟨-, n, hn, -⟩ := claimable_eq_true hp
  rw [hn]
  rfl

/-! ### CLAIM NEXT -/

theorem nextBody_none {s : State} {l : RLane} {b : Binding} (tag : Byte)
    (h : lowestFrame (claimable b.source (s.rl.get l).mark) s.fpc.slots = none) : nextBody l tag b s = waitClaim l tag s := by
  simp only [nextBody, h]

theorem nextBody_some {s : State} {l : RLane} {b : Binding} {k : Nat} (tag : Byte)
    (h : lowestFrame (claimable b.source (s.rl.get l).mark) s.fpc.slots = some k) : nextBody l tag b s = takeFrame l b k s := by
  simp only [nextBody, h]

/-- Settles O23: the common checks, the lowest frame above the mark or the wait for one, and the kind byte that names no kind. -/
theorem claimNextMeaning : Obligations.ClaimNextMeaning := by
  intro s l tag n3 n2 n1 n0 rest r no lane hr
  obtain ⟨noPlan, notBound, holdLimit, passed⟩ :=
    claim_answers (body := fun l r => nextBody l r.tag) hr rfl rfl rfl (show claimKindOf (0 : Byte).toNat = some .next from rfl)
  refine ⟨noPlan, notBound, holdLimit, fun b hp hb hl => ?_, fun kind hkind hp => ?_⟩
  · intro above
    have habove : above = claimable b.source lane.mark := (claimable_eq ..).symm
    have hexec := passed b hp hb hl
    rw [habove]
    cases hlow : lowestFrame (claimable b.source lane.mark) s.fpc.slots with
    | none =>
      refine .inl ⟨(lowestFrame_eq_none (claimable_numbered b.source lane.mark s.fpc.slots)).mp hlow, hexec.trans ?_⟩
      rw [nextBody_none _ hlow, waitClaim, answerHead_eq_reply hr.2.2, Nat.mul_comm]
      split <;> rfl
    | some k =>
      have hmem := hlow
      rw [lowestFrame_eq, Option.map_eq_some_iff] at hmem
      obtain ⟨⟨j, n⟩, hmem, rfl⟩ := hmem
      obtain ⟨c, hc, hpass, -⟩ := lowestOf_mem hmem
      exact .inr ⟨j, hexec.trans (congrArg Host.Outcome.next (nextBody_some _ hlow)), ⟨c, hc, hpass⟩,
        fun hcomp => lowest_of_lowestFrame hcomp hlow⟩
  · intro bad u
    have hk := claimKindOf_large hkind
    have hu : Ready u (.rl l) bad rest := ready_requeue hr bad
    exact ⟨(execClaimNext_eq _ u).trans (claim_bad_kind hu rfl rfl rfl hk hp),
      (execClaimLatest_eq _ u).trans (claim_bad_kind hu rfl rfl rfl hk hp),
      (execClaimNumber_eq _ u).trans (claim_bad_kind hu rfl rfl rfl hk hp)⟩

/-! ### CLAIM LATEST -/

theorem latestBody_none {s : State} {l : RLane} {b : Binding} (h : s.fpc.current.get b.source = none) :
    latestBody l b s = answerHead (.rl l) .noFrame [] s := by
  simp only [latestBody, h]

/-- The CURRENT frame is taken when it is above the mark (R98). -/
theorem latestBody_some {s : State} {l : RLane} {b : Binding} {k : Nat} {cur : Bool} {f : SealedFrame} {v : Verdict} {h : Nat}
    {o : PerRL Bool} (hc : s.fpc.current.get b.source = some k) (hk : s.fpc.slots[k]? = some (.analysed cur f v h o))
    (hx : f.source = b.source) : latestBody l b s =
      if aboveMark (s.rl.get l).mark f.number then takeFrame l b k s else answerHead (.rl l) .noFrame [] s := by
  simp only [latestBody, hc, slot_of_getElem? hk, claimable, hx, decide_true, Bool.true_and]

/-- Settles O24: the common checks, and then the CURRENT frame by the mark. -/
theorem claimLatestMeaning : Obligations.ClaimLatestMeaning := by
  intro s l tag n3 n2 n1 n0 rest r no lane hr
  obtain ⟨noPlan, notBound, holdLimit, passed⟩ :=
    claim_answers (body := fun l _ => latestBody l) hr rfl rfl rfl (show claimKindOf (1 : Byte).toNat = some .latest from rfl)
  refine ⟨noPlan, notBound, holdLimit, fun b hp hb hl => ⟨fun hc => ?_, fun k f v h o hc hk hx => ⟨fun ha => ?_, fun m hm hle => ?_⟩⟩⟩
  · refine (passed b hp hb hl).trans ?_
    rw [latestBody_none hc, answerHead_eq_reply hr.2.2]
  · refine (passed b hp hb hl).trans ?_
    rw [latestBody_some hc hk hx, if_pos (aboveMark_iff.mpr ha)]
  · have hbelow : ¬ aboveMark lane.mark f.number = true := by
      rw [hm, aboveMark_iff]
      rintro (hnone | ⟨i, hi, hne, hlt⟩)
      · cases hnone
      · cases hi
        exact hle.elim hne (Nat.not_le.mpr hlt)
    refine (passed b hp hb hl).trans ?_
    rw [latestBody_some hc hk hx, if_neg hbelow, answerHead_eq_reply hr.2.2]

/-! ### CLAIM NUMBER -/

/-- The first slot that holds the source's frame is the one found. -/
theorem slotOfFrame_first {x : Src} {n : FrameNo} {slots : List Slot} {k : Nat} {c : Slot} (hk : slots[k]? = some c)
    (hc : slotSource c = some x ∧ slotFrame c = some n)
    (hfirst : ∀ j d, j < k → slots[j]? = some d → ¬ (slotSource d = some x ∧ slotFrame d = some n)) :
    slotOfFrame x n slots = some k := by
  obtain ⟨hlen, rfl⟩ := List.getElem?_eq_some_iff.mp hk
  refine List.findIdx?_eq_some_iff_getElem.mpr ⟨hlen, by simpa using hc, fun j hj => ?_⟩
  simpa using hfirst j _ hj (List.getElem?_eq_getElem (by omega))

theorem slotOfFrame_none {x : Src} {n : FrameNo} {slots : List Slot}
    (h : ∀ c, c ∈ slots → ¬ (slotSource c = some x ∧ slotFrame c = some n)) : slotOfFrame x n slots = none :=
  List.findIdx?_eq_none_iff.mpr fun c hc => by simpa using h c hc

section
variable {s : State} {l : RLane} {n : FrameNo} {b : Binding}

theorem numberBody_order (h : atOrBelowMark (s.rl.get l).mark n = true) :
    numberBody l n b s = answerHead (.rl l) .order [] s := by
  simp only [numberBody, h, if_true]

theorem numberBody_unsealed (h : ¬ atOrBelowMark (s.rl.get l).mark n = true)
    (hs : ¬ frameBelow n (s.fpc.nextFrame.get b.source) = true) : numberBody l n b s = answerHead (.rl l) .notYet [] s := by
  simp only [numberBody, h, hs, Bool.false_eq_true, if_false, Bool.not_false, if_true]

theorem numberBody_gone (h : ¬ atOrBelowMark (s.rl.get l).mark n = true)
    (hs : frameBelow n (s.fpc.nextFrame.get b.source) = true) (hk : slotOfFrame b.source n s.fpc.slots = none) :
    numberBody l n b s = answerHead (.rl l) .gone [] s := by
  simp only [numberBody, h, hs, hk, Bool.false_eq_true, if_false, Bool.not_true]

/-- A frame still in the pool is taken once it is analysed (R99). -/
theorem numberBody_found {k : Nat} (h : ¬ atOrBelowMark (s.rl.get l).mark n = true)
    (hs : frameBelow n (s.fpc.nextFrame.get b.source) = true) (hk : slotOfFrame b.source n s.fpc.slots = some k) :
    ((∃ cur f v h o, s.slot k = .analysed cur f v h o) → numberBody l n b s = takeFrame l b k s) ∧
    ((∀ cur f v h o, s.slot k ≠ .analysed cur f v h o) → numberBody l n b s = answerHead (.rl l) .notYet [] s) := by
  simp only [numberBody, h, hs, hk, Bool.false_eq_true, if_false, Bool.not_true]
  split
  · next e => exact ⟨fun _ => rfl, fun hn => absurd e (hn _ _ _ _ _)⟩
  · next e => exact ⟨fun ⟨_, _, _, _, _, he⟩ => absurd he (e _ _ _ _ _), fun _ => rfl⟩

end

/-- Settles O25: the common checks, and then the mark, the number next to be sealed, and the slot that holds the frame. -/
theorem claimNumberMeaning : Obligations.ClaimNumberMeaning := by
  intro s l tag n3 n2 n1 n0 rest r no lane n hr
  obtain ⟨noPlan, notBound, holdLimit, claims⟩ :=
    claim_answers (body := fun l r => numberBody l (BitVec.ofNat 32 (field r.payload 1 4))) hr rfl rfl rfl
      (show claimKindOf (2 : Byte).toNat = some .number from rfl)
  refine ⟨noPlan, notBound, holdLimit, fun b hp hb hl => ?_⟩
  intro passed sealed
  have hn : BitVec.ofNat 32 (field r.payload 1 4) = n := congrArg (BitVec.ofNat 32) (beNat_four n3 n2 n1 n0)
  have hexec : exec (.claimNumber (.rl l)) s = .next (numberBody l n b s) := by
    rw [← hn]
    exact claims b hp hb hl
  have hmark : atOrBelowMark lane.mark n = true ↔ passed := atOrBelowMark_iff
  refine ⟨fun h => ?_, fun h hs => ?_, fun k c h hs hk hx hf hfirst => ?_, fun h hs hgone => ?_⟩
  · rw [hexec, numberBody_order (hmark.mpr h), answerHead_eq_reply hr.2.2]
  · rw [hexec, numberBody_unsealed (mt hmark.mp h) hs, answerHead_eq_reply hr.2.2]
  · have hslot := slot_of_getElem? hk
    obtain ⟨taken, notYet⟩ := numberBody_found (mt hmark.mp h) hs (slotOfFrame_first hk ⟨hx, hf⟩ hfirst)
    rw [hslot] at taken notYet
    rw [hexec]
    cases c with
    | analysed cur f v h o => rw [taken ⟨_, _, _, _, _, rfl⟩]
    | _ =>
      rw [notYet (by simp), answerHead_eq_reply hr.2.2]
  · rw [hexec, numberBody_gone (mt hmark.mp h) hs (slotOfFrame_none hgone), answerHead_eq_reply hr.2.2]

end Sys2Proof.Machine
end

section
/-! O26, O28: what RELEASE and FETCH do with a held slot. -/

namespace Sys2Proof.Machine

open Sys2Proof Sys2Proof.Claims

/-! ### Hold list entries -/

/-- The first entry that names the slot is the one found. -/
theorem holdOf_first {r : RenditionLane} {before after : List Hold} {e : Hold} {k : Nat} (hh : r.holds = before ++ e :: after)
    (hb : ∀ d, d ∈ before → d.slot ≠ k) (he : e.slot = k) : holdOf r k = some e :=
  List.find?_eq_some_iff_append.mpr ⟨decide_eq_true he, before, after, hh, fun d hd => by simpa using hb d hd⟩

theorem holdOf_free {r : RenditionLane} {k : Nat} (h : ∀ e, e ∈ r.holds → e.slot ≠ k) : holdOf r k = none :=
  holdOf_eq_none fun ⟨e, he, hk⟩ => h e he hk

/-! ### RELEASE -/

/-- The hold list entry and one hold of the slot have left, and the slot is not yet examined (R14, R100). -/
def unheldState (l : RLane) (k : Nat) (s : State) : State :=
  (s.modRl l fun x => { x with holds := x.holds.filter fun e => decide (e.slot ≠ k) }).setSlot k (dropHold (s.slot k))

theorem rlLinks_unheldState (l : RLane) (k : Nat) (s : State) : (unheldState l k s).rlLinks = s.rlLinks :=
  rlLinks_modRl (s := s) (f := fun x => { x with holds := x.holds.filter fun e => decide (e.slot ≠ k) }) rfl

section
variable {s : State} {l : RLane} {r : Request}

theorem releaseBody_noPlan (hp : s.fpc.plan = none) : releaseBody l r s = answerHead (.rl l) .noPlan [] s := by
  simp only [releaseBody, hp]

theorem releaseBody_notHeld (hp : s.fpc.plan ≠ none) (hh : holdOf (s.rl.get l) (field r.payload 0 1) = none) :
    releaseBody l r s = answerHead (.rl l) .notHeld [] s := by
  obtain ⟨p, hp⟩ := Option.ne_none_iff_exists'.mp hp
  simp only [releaseBody, hp, hh]

theorem releaseBody_held {k : Nat} (hp : s.fpc.plan ≠ none) (hk : field r.payload 0 1 = k) (hh : holdOf (s.rl.get l) k ≠ none) :
    releaseBody l r s = answerHead (.rl l) .ok [] (settle s.fpc.slots (unheldState l k s)) := by
  obtain ⟨p, hp⟩ := Option.ne_none_iff_exists'.mp hp
  obtain ⟨e, hh⟩ := Option.ne_none_iff_exists'.mp hh
  simp only [releaseBody, hp, hk, hh]
  rfl

end

/-- Settles O26: the checks, and then the entry, the hold and the examining of the slot. -/
theorem releaseMeaning : Obligations.ReleaseMeaning := by
  intro s l tag k rest r no lane hr
  have ht : isKind .release r = true := rfl
  have hslot : field r.payload 0 1 = k.toNat := field_head k []
  refine ⟨fun hp => renditionRequest_answers hr ht (releaseBody_noPlan hp), fun hp hh => ?_, fun e cur f v h o hp he hk hs => ?_⟩
  · exact renditionRequest_answers hr ht (releaseBody_notHeld hp (by rw [hslot]; exact holdOf_free hh))
  · have held := releaseBody_held (r := r) hp hslot (holdOf_ne_none ⟨e, he, hk⟩)
    refine (renditionRequest_does hr ht held ((rlLinks_settle ..).trans (rlLinks_unheldState ..))).trans ?_
    rw [unheldState, slot_of_getElem? hs]
    rfl

/-! ### FETCH -/

/-- The context of a FETCH of c bands from band f of a hold, its last band within the hold's bands (R122). -/
def fetchCtx (tag : Byte) (e : Hold) (f c : Nat) : FetchCtx :=
  { tag := tag, hold := e, nextBand := f, lastBand := min (f + c - 1) (bandCount e.window - 1), served := 0, phase := .request }

/-- A FETCH is under way with its context, and no burst is requested yet (R122). -/
def fetchStarted (l : RLane) (ctx : FetchCtx) (s : State) : State := s.modRl l fun x => { x with fetch := some ctx }

section
variable {s : State} {l : RLane} {r : Request}

theorem fetchBody_noPlan (hp : s.fpc.plan = none) : fetchBody l r s = answerHead (.rl l) .noPlan [] s := by
  simp only [fetchBody, hp]

theorem fetchBody_notHeld (hp : s.fpc.plan ≠ none) (hh : holdOf (s.rl.get l) (field r.payload 0 1) = none) :
    fetchBody l r s = answerHead (.rl l) .notHeld [] s := by
  obtain ⟨p, hp⟩ := Option.ne_none_iff_exists'.mp hp
  simp only [fetchBody, hp, hh]

/-- A FETCH of a held slot: the bands it names have to be the hold's, and the first one's burst is requested when the band buffer is
empty (R122, R123). -/
theorem fetchBody_held {e : Hold} {f c : Nat} (hp : s.fpc.plan ≠ none) (hh : holdOf (s.rl.get l) (field r.payload 0 1) = some e)
    (hf : field r.payload 1 1 = f) (hc : field r.payload 2 1 = c) : fetchBody l r s =
      if c = 0 ∨ bandCount e.window ≤ f then answerHead (.rl l) .badArg [] s
      else if (s.rl.get l).bandBuffer = none then
        placeRequest (.rl l) (bandCost e.window) (fetchStarted l (fetchCtx r.tag e f c) s)
      else fetchStarted l (fetchCtx r.tag e f c) s := by
  obtain ⟨p, hp⟩ := Option.ne_none_iff_exists'.mp hp
  simp only [fetchBody, hp, hh, hf, hc, State.modRl_rl, PerRL.get_set_self, Option.isNone_iff_eq_none]
  rfl

end

/-- Settles O28: the checks, and then the context and the first band's burst. -/
theorem fetchMeaning : Obligations.FetchMeaning := by
  intro s l tag k f c rest r no lane hr
  have ht : isKind .fetch r = true := rfl
  have hslot : field r.payload 0 1 = k.toNat := field_head k [f, c]
  have hfirst : field r.payload 1 1 = f.toNat := field_head f [c]
  have hcount : field r.payload 2 1 = c.toNat := field_head c []
  refine ⟨fun hp => renditionRequest_answers hr ht (fetchBody_noPlan hp), fun hp hh => ?_, ?_⟩
  · exact renditionRequest_answers hr ht (fetchBody_notHeld hp (by rw [hslot]; exact holdOf_free hh))
  · intro before e after hp hh hb he bands ctx u
    have held := fetchBody_held hp (hslot ▸ holdOf_first hh hb he) hfirst hcount
    have hzero : c.toNat = 0 ↔ c = 0 := not_iff_not.mp toNat_ne_zero_iff
    have good : c ≠ 0 → f.toNat < bands → ¬ (c.toNat = 0 ∨ bandCount e.window ≤ f.toNat) := fun hc hf =>
      not_or.mpr ⟨mt hzero.mp hc, Nat.not_le.mpr hf⟩
    refine ⟨fun hbad => ?_, fun hc hf hbuf => ?_, fun hc hf hbuf => ?_⟩
    · exact renditionRequest_answers hr ht (held.trans (if_pos (hbad.imp_left hzero.mpr)))
    · rw [if_neg (good hc hf), if_pos hbuf] at held
      exact (renditionRequest_ready hr ht _).trans (congrArg Host.Outcome.next held)
    · rw [if_neg (good hc hf), if_neg hbuf] at held
      exact (renditionRequest_ready hr ht _).trans (congrArg Host.Outcome.next held)

end Sys2Proof.Machine
end

section
/-! O32: what a lane's transmitter sends next, and what the end of a sending does. -/

namespace Sys2Proof.Machine

open Sys2Proof Sys2Proof.Claims

theorem modRl_congr {s : State} {l : RLane} {f g : RenditionLane → RenditionLane} (h : f (s.rl.get l) = g (s.rl.get l)) :
    s.modRl l f = s.modRl l g := by
  simp only [State.modRl, h]

theorem modLink_congr {s : State} {lane : Lane} {f g : Link → Link} (h : f (s.link lane) = g (s.link lane)) :
    s.modLink lane f = s.modLink lane g := by
  cases lane with
  | il x => exact congrArg (fun k => s.modIl x fun r => { r with link := k }) h
  | rl l => exact congrArg (fun k => s.modRl l fun r => { r with link := k }) h

/-! ### What is sent next -/

section
variable {s : State} {lane : Lane} {l : RLane}

theorem takeOutgoing_down (h : (s.link lane).up = false) : takeOutgoing lane s = none := by
  simp only [takeOutgoing, h, Bool.not_false, if_true]

theorem takeOutgoing_notice {n : Notice} {rest : List Notice} (hup : (s.link (.rl l)).up = true)
    (ha : (s.link (.rl l)).ahead = 0) (hn : (s.rl.get l).notices = n :: rest) :
    takeOutgoing (.rl l) s =
      some (.notice (s.rl.get l).overrun n, s.modRl l fun r => { r with notices := rest, overrun := false }) := by
  simp only [takeOutgoing, hup, ha, hn, Bool.not_true, Bool.false_eq_true, if_false, Nat.lt_irrefl]

/-- No notice goes before the lane's waiting answers and bands: there is none, or a soft reset left some of those (R90, R178). -/
def NoNoticeFirst (lane : Lane) (s : State) : Prop :=
  ∀ l, lane = .rl l → (s.rl.get l).notices = [] ∨ 0 < (s.link (.rl l)).ahead

theorem takeOutgoing_answer {a : Answer} {rest : List Outgoing} (hup : (s.link lane).up = true) (hn : NoNoticeFirst lane s)
    (ho : (s.link lane).outgoing = .answer a :: rest) :
    takeOutgoing lane s = some (.answer a, s.modLink lane fun k => { k with outgoing := rest, ahead := k.ahead - 1 }) := by
  cases lane with
  | il x => simp only [takeOutgoing, hup, ho, Bool.not_true, Bool.false_eq_true, if_false]
  | rl l =>
    rcases hn l rfl with hn | ha
    · simp only [takeOutgoing, hup, ho, hn, Bool.not_true, Bool.false_eq_true, if_false, ite_self]
    · simp only [takeOutgoing, hup, ho, ha, Bool.not_true, Bool.false_eq_true, if_false, if_true]

theorem takeOutgoing_bandData {b : Band} {rest : List Outgoing} (hup : (s.link (.rl l)).up = true) (hn : NoNoticeFirst (.rl l) s)
    (ho : (s.link (.rl l)).outgoing = .bandData :: rest) (hb : (s.rl.get l).bandBuffer = some b) :
    takeOutgoing (.rl l) s =
      some (.band b, s.modLink (.rl l) fun k => { k with outgoing := rest, ahead := k.ahead - 1 }) := by
  rcases hn l rfl with hn | ha
  · simp only [takeOutgoing, hup, ho, hn, hb, Bool.not_true, Bool.false_eq_true, if_false, ite_self]
  · simp only [takeOutgoing, hup, ho, ha, hb, Bool.not_true, Bool.false_eq_true, if_false, if_true]

theorem takeOutgoing_empty (ho : (s.link lane).outgoing = []) (hn : ∀ l, lane = .rl l → (s.rl.get l).notices = []) :
    takeOutgoing lane s = none := by
  cases lane with
  | il x => simp only [takeOutgoing, ho, ite_self]
  | rl l => simp only [takeOutgoing, ho, hn l rfl, ite_self]

/-! ### A sending -/

theorem beginSend_none (hs : (s.link lane).sending = none) (ht : takeOutgoing lane s = none) : beginSend lane s = s := by
  simp only [beginSend, hs, ht, Option.isSome_none, Bool.false_eq_true, if_false]

theorem beginSend_some {r : OutRecord} {t : State} (hs : (s.link lane).sending = none) (ht : takeOutgoing lane s = some (r, t)) :
    beginSend lane s = t.modLink lane fun k => { k with sending := some { record := r, live := true } } := by
  simp only [beginSend, hs, ht, Option.isSome_none, Bool.false_eq_true, if_false]

theorem endSend_none (hs : (s.link lane).sending = none) : endSend lane s = s := by
  simp only [endSend, hs]

/-- The transmitter is free again after a record (R90). -/
def recordSent (lane : Lane) (r : OutRecord) (s : State) : State :=
  s.modLink lane fun k => { k with sending := none, lastSent := recordBytes r }

theorem recordSent_rl (l : RLane) (r : OutRecord) (s : State) : recordSent (.rl l) r s =
    s.modRl l fun x => { x with link := { x.link with sending := none, lastSent := recordBytes r } } := rfl

theorem endSend_record {d : Sending} (hs : (s.link lane).sending = some d) (hd : ∀ b, d.record ≠ .band b) :
    endSend lane s = recordSent lane d.record s := by
  simp only [endSend, hs]
  split
  · next b l h _ => exact absurd h (hd b)
  · rfl

theorem endSend_band {d : Sending} {b : Band} (hs : (s.link (.rl l)).sending = some d) (hd : d.record = .band b)
    (hl : d.live = true) : endSend (.rl l) s = bandSent l (recordSent (.rl l) (.band b) s) := by
  simp only [endSend, hs, hd, hl, recordSent]

theorem recordSent_begun (lane : Lane) (r : OutRecord) (t : State) :
    recordSent lane r (t.modLink lane fun k => { k with sending := some { record := r, live := true } }) = recordSent lane r t :=
  modLink_modLink ..

end

/-! ### TRANSMIT_RECORD -/

section
variable {s : State} {lane : Lane} {l : RLane}

theorem execTransmitRecord_start (h : s.rstnLow = false) : exec (.transmitRecord lane .start) s = .next (beginSend lane s) := by
  show execTransmitRecord lane .start s = _
  rw [execTransmitRecord, running_of_high h]

theorem execTransmitRecord_finish (h : s.rstnLow = false) : exec (.transmitRecord lane .finish) s = .next (endSend lane s) := by
  show execTransmitRecord lane .finish s = _
  rw [execTransmitRecord, running_of_high h]

/-- A free transmitter begins and ends a sending. -/
theorem execTransmitRecord_whole (h : s.rstnLow = false) (hs : (s.link lane).sending = none) :
    exec (.transmitRecord lane .whole) s = .next (endSend lane (beginSend lane s)) := by
  show execTransmitRecord lane .whole s = _
  rw [execTransmitRecord, running_of_high h]
  simp only [hs, Option.isSome_none, Bool.false_eq_true, if_false]

theorem execTransmitRecord_busy (h : s.rstnLow = false) {d : Sending} (hs : (s.link lane).sending = some d) :
    exec (.transmitRecord lane .whole) s = .next s := by
  show execTransmitRecord lane .whole s = _
  rw [execTransmitRecord, running_of_high h]
  simp only [hs, Option.isSome_some, if_true]

theorem transmit_nothing (h : s.rstnLow = false) (hs : (s.link lane).sending = none) (ht : takeOutgoing lane s = none) :
    exec (.transmitRecord lane .whole) s = .next s := by
  rw [execTransmitRecord_whole h hs, beginSend_none hs ht, endSend_none hs]

theorem transmit_record (h : s.rstnLow = false) (hs : (s.link lane).sending = none) {r : OutRecord} {t : State}
    (ht : takeOutgoing lane s = some (r, t)) (hr : ∀ b, r ≠ .band b) :
    exec (.transmitRecord lane .whole) s = .next (recordSent lane r t) := by
  rw [execTransmitRecord_whole h hs, beginSend_some hs ht, endSend_record (by rw [State.link_modLink_self]) hr, recordSent_begun]

theorem transmit_band (h : s.rstnLow = false) (hs : (s.link (.rl l)).sending = none) {b : Band} {t : State}
    (ht : takeOutgoing (.rl l) s = some (.band b, t)) :
    exec (.transmitRecord (.rl l) .whole) s = .next (bandSent l (recordSent (.rl l) (.band b) t)) := by
  rw [execTransmitRecord_whole h hs, beginSend_some hs ht, endSend_band (by rw [State.link_modLink_self]) rfl rfl, recordSent_begun]

/-- The end of a band's sending, for a FETCH with its context: the answer after the last band, or the next band's request (R123, R124). -/
theorem bandSent_fetch {c : FetchCtx} (hf : (s.rl.get l).fetch = some c) : bandSent l s =
    if c.nextBand = c.lastBand then
      answerHead (.rl l) .ok (beBytes 1 (c.served + 1)) (s.modRl l fun r => { r with bandBuffer := none, fetch := none })
    else
      placeRequest (.rl l) (bandCost c.hold.window) (s.modRl l fun r => { r with
        bandBuffer := none
        fetch := some { c with nextBand := c.nextBand + 1, served := c.served + 1, phase := .request } }) := by
  simp only [bandSent, hf]

end

/-- Settles O32: what the transmitter takes by the lane's notices and waiting records, and what the end of the sending does. -/
theorem transmitterOrder : Obligations.TransmitterOrder := by
  intro s h
  refine ⟨fun lane hup hs => transmit_nothing h hs (takeOutgoing_down hup), ?_, ?_, ?_,
    fun lane hs ho hn => transmit_nothing h hs (takeOutgoing_empty ho hn), ?_, fun lane d => execTransmitRecord_busy h⟩
  · intro l n rest hup hs ha hn
    refine (transmit_record h hs (takeOutgoing_notice hup ha hn) (by simp)).trans (congrArg Host.Outcome.next ?_)
    have hlink : (s.rl.get l).link.sending = none := hs
    rw [recordSent_rl, modRl_modRl]
    exact modRl_congr (by simp only [hlink])
  · intro lane a rest hup hs ho hn
    refine (transmit_record h hs (takeOutgoing_answer hup hn ho) (by simp)).trans (congrArg Host.Outcome.next ?_)
    exact (modLink_modLink ..).trans (modLink_congr (by simp only [hs]))
  · intro l b c rest hup hs hn ho hb hf u
    have hfirst : NoNoticeFirst (.rl l) s := fun j hj => by cases hj; exact hn
    rw [transmit_band h hs (takeOutgoing_bandData hup hfirst ho hb), bandSent_fetch (c := c) ?_]
    · have hlink : (s.rl.get l).link.sending = none := hs
      have hfetch : ∀ o : Option FetchCtx, ((recordSent (.rl l) (.band b)
          (s.modLink (.rl l) fun k => { k with outgoing := rest, ahead := k.ahead - 1 })).modRl l fun r =>
            { r with bandBuffer := none, fetch := o }) = u.modRl l fun r => { r with fetch := o } := fun o => by
        rw [recordSent_rl, State.modLink, modRl_modRl, modRl_modRl, modRl_modRl]
        exact modRl_congr (by simp only [hlink])
      rw [hfetch, hfetch]
      split <;> rfl
    · rw [recordSent_rl, State.modLink, modRl_modRl, State.modRl_rl, PerRL.get_set_self, hf]
  · intro lane hs
    refine ⟨beginSend lane s, execTransmitRecord_start h, ?_⟩
    rw [execTransmitRecord_whole h hs]
    exact execTransmitRecord_finish ((beginSend_rstnLow lane s).trans h)

end Sys2Proof.Machine
end

section
/-! O29: the end of a band's burst, by whether its FETCH is still there. -/

namespace Sys2Proof.Machine

open Sys2Proof Sys2Proof.Claims

/-! ### The finished band -/

/-- No more sums than the record of a band has places. -/
theorem length_bandSums_le (v : ReadOut) (w : Window) (b : Nat) : (bandSums v w b).length ≤ 12 * outWidth w := by
  simp only [bandSums_eq, List.length_append, length_sampleLines]
  omega

/-- Sums added to a record that still holds zeros are the sums. -/
theorem zipWith_add_replicate_zero {n : Nat} {sums : List Nat} (h : sums.length ≤ n) :
    List.zipWith (· + ·) (List.replicate n 0) sums = sums :=
  List.ext_getElem (by simp [h]) fun k _ _ => by simp

/-- The finished band of a record that has added nothing yet is made of the band's sums (R118, R120). -/
theorem finishedBand_fresh {s : State} {p : BandInProgress} (x : Src)
    (hp : p.sums = List.replicate (12 * outWidth p.window) 0) : finishedBand s p x =
      { tag := p.tag, slot := p.slot, index := p.index
        data := bandBytes p.window.d (bandSums (readOutOf s p x) p.window p.index) } := by
  rw [finishedBand, hp, zipWith_add_replicate_zero (length_bandSums_le ..)]

/-! ### The end of the burst -/

section
variable {s : State} {b : Burst} {l : RLane}

theorem bandBurst_aborted (h : s.rstnLow = false) (hd : s.ms.dram = .burst b) (hj : b.job = .band l)
    (hm : mayComplete s.ms = true) (hl : b.live = false) :
    execBandBurstComplete s = .next (endBurst { s with band := none }) := by
  simp only [execBandBurstComplete, running_of_high h, hd, hj, hm, hl, Bool.not_true, Bool.false_eq_true, if_false]

theorem bandBurst_delivers {p : BandInProgress} {x : Src} (h : s.rstnLow = false) (hd : s.ms.dram = .burst b)
    (hj : b.job = .band l) (hm : mayComplete s.ms = true) (hl : b.live = true) (hp : s.band = some p)
    (hx : slotSource (s.slot p.slot) = some x)
    (hr : s.rowPlace p.slot (s.cols x) 0 + s.rows x * (s.cols x * 6144) ≤ 134217728) :
    execBandBurstComplete s = .next (endBurst (bufferBand l (finishedBand s p x) { s with band := none })) := by
  simp only [execBandBurstComplete, running_of_high h, hd, hj, hm, hl, hp, hx, (inDram_eq_true ..).mpr hr, Config.tileBytes,
    Bool.not_true, Bool.false_eq_true, if_false, if_true]

end

/-- Settles O29: a burst whose FETCH has ended leaves nothing, and otherwise the finished band enters the buffer. -/
theorem bandBurstMeaning : Obligations.BandBurstMeaning := by
  intro s b l h hd hj hroom
  have hm : mayComplete s.ms = true := (mayComplete_iff s.ms).mpr (by rw [hd]; exact hroom)
  refine ⟨bandBurst_aborted h hd hj hm, ?_⟩
  intro p c x hl hp hc hx hsums hrange v done
  have hsource : slotSource (s.slot p.slot) = some x := by rw [slot_of_getElem? hc, hx]
  have hdone : finishedBand s p x = done := finishedBand_fresh x hsums
  rw [← hdone]
  exact bandBurst_delivers h hd hj hm hl hp hsource hrange

end Sys2Proof.Machine
end

section
/-! O31: the rounded average of a block, and the blocks whose samples are all the same. -/

namespace Sys2Proof.Machine

open Sys2Proof Sys2Proof.Claims

/-! ### The rounded average of a sum -/

section
variable {n : Nat}

/-- The rounded average lies less than a half below the true one, and at most a half above it: a half is rounded up (R118). -/
theorem blockMean_nearest (hn : 1 ≤ n) (S : Nat) :
    2 * S < 2 * n * blockMean n S + n ∧ 2 * n * blockMean n S ≤ 2 * S + n := by
  have hsplit : n * blockMean n S + (S + n / 2) % n = S + n / 2 := Nat.div_add_mod ..
  have hrest : (S + n / 2) % n < n := Nat.mod_lt _ hn
  rw [Nat.mul_assoc]
  omega

theorem blockMean_mono {S T : Nat} (h : S ≤ T) : blockMean n S ≤ blockMean n T :=
  Nat.div_le_div_right (Nat.add_le_add_right h _)

theorem blockMean_uniform (hn : 1 ≤ n) (u : Nat) : blockMean n (n * u) = u := by
  rw [blockMean, Nat.mul_add_div hn, Nat.div_eq_of_lt (Nat.div_lt_self hn (by decide)), Nat.add_zero]

theorem blockMean_le {S m : Nat} (hn : 1 ≤ n) (h : S ≤ n * m) : blockMean n S ≤ m :=
  (blockMean_mono h).trans_eq (blockMean_uniform hn m)

end

/-! ### Uniform blocks -/

theorem sum_map_range_const {d u : Nat} {f : Nat → Nat} (h : ∀ k, k < d → f k = u) : ((List.range d).map f).sum = d * u := by
  rw [List.map_congr_left fun k hk => h k (List.mem_range.mp hk), List.map_const', List.length_range, List.sum_replicate,
    smul_eq_mul]

theorem blockSum_const {d x y u : Nat} {sample : Nat → Nat → Nat}
    (h : ∀ a b, a < d → b < d → sample (x + a) (y + b) = u) : blockSum d sample x y = d * d * u := by
  rw [Nat.mul_assoc]
  exact sum_map_range_const fun b hb => sum_map_range_const fun a ha => h a b ha hb

/-- Where its tile is PRIVACY a composed luma sample is black (R84). -/
theorem composeLuma_privacy {v : ReadOut} {x y : Nat}
    (h : v.attrAt (min y (v.height - 1) / 64) (min x (v.width - 1) / 64) = .privacy) : composeLuma v x y = 16 :=
  (composeLuma_eq v x y).trans (if_pos h)

/-- Where its tile is PRIVACY a composed chroma sample is neutral (R85). -/
theorem composeChroma_privacy {v : ReadOut} {x y : Nat} (p : ChromaPlane)
    (h : v.attrAt (2 * min y (v.height / 2 - 1) / 64) (2 * min x (v.width / 2 - 1) / 64) = .privacy) :
    composeChroma v p x y = 128 := by
  unfold composeChroma
  simp only [h]

/-- Settles O31: the rounded average by the division with rest, and a PRIVACY block as a uniform one. -/
theorem roundedAverage : Obligations.RoundedAverage := by
  refine ⟨fun d sums => rfl, ?_, by decide, fun v w i j hd => ?_⟩
  · intro d values hd hlen hbyte n v
    have hn : 1 ≤ n := Nat.mul_pos hd hd
    have hsum : values.sum ≤ n * 255 := (List.sum_le_card_nsmul values 255 hbyte).trans_eq (by rw [hlen, smul_eq_mul])
    refine ⟨rfl, blockMean_le hn hsum, hsum.trans_eq (Nat.mul_comm ..), fun u hu => ?_, blockMean_nearest hn values.sum⟩
    have huniform : values.sum = n * u := (List.sum_eq_card_nsmul values u hu).trans (by rw [hlen, smul_eq_mul])
    exact (congrArg (blockMean n) huniform).trans (blockMean_uniform hn u)
  · have hn : 1 ≤ w.d * w.d := Nat.mul_pos hd hd
    refine ⟨fun h => ?_, fun plane h => ?_⟩
    · rw [lumaSum, blockSum_const fun a b ha hb => composeLuma_privacy (h a b ha hb), blockMean_uniform hn]
    · rw [chromaSum, blockSum_const fun a b ha hb => composeChroma_privacy plane (h a b ha hb), blockMean_uniform hn]

end Sys2Proof.Machine
end

section
/-! SUPPORT for O53. What a requester may spend and what a lane's largest band costs, and the operations that leave the caps as they
are and make neither larger. -/

namespace Sys2Proof.Machine

open Sys2Proof Sys2Proof.Claims

/-! ### No more to spend and no dearer bands -/

/-- From s to t the plan and the schedules stand as they were, no requester's balance has grown, and no rendition lane's largest band
cost has (R93, R132, R140). -/
structure Frugal (s t : State) : Prop where
  plan : t.fpc.plan = s.fpc.plan
  schedule : t.ms.schedule = s.ms.schedule
  pending : t.ms.pendingSchedule = s.ms.pendingSchedule
  balance : ∀ r, t.ms.balance.get r ≤ s.ms.balance.get r
  cost : ∀ l, largestBandCost (t.rl.get l) ≤ largestBandCost (s.rl.get l)

theorem Frugal.refl (s : State) : Frugal s s := ⟨rfl, rfl, rfl, fun _ => le_rfl, fun _ => le_rfl⟩

theorem Frugal.trans {s t u : State} (h : Frugal s t) (g : Frugal t u) : Frugal s u where
  plan := g.plan.trans h.plan
  schedule := g.schedule.trans h.schedule
  pending := g.pending.trans h.pending
  balance r := (g.balance r).trans (h.balance r)
  cost l := (g.cost l).trans (h.cost l)

/-- `Frugal.trans` with the later change first, which says what the state between is. -/
theorem Frugal.after {s t u : State} (g : Frugal t u) (h : Frugal s t) : Frugal s u := h.trans g

theorem CreditLaw.of_frugal {s t : State} (h : CreditLaw s) (f : Frugal s t) : CreditLaw t := fun r => by
  rw [f.schedule]
  exact (f.balance r).trans (h r)

theorem Honoured.of_frugal {a : PerReq Nat} {s t : State} (h : Honoured a s) (f : Frugal s t) : Honoured a t := by
  obtain ⟨hsum, hplan, hcost⟩ := h
  exact ⟨hsum, fun p hp => hplan p (f.plan.symm.trans hp), fun l => (f.cost l).trans (hcost l)⟩

theorem CapLaw.of_frugal {s t : State} (h : CapLaw s) (f : Frugal s t) : CapLaw t := by
  obtain ⟨now, next⟩ := h
  refine ⟨?_, fun c hc => (next c (f.pending.symm.trans hc)).of_frugal f⟩
  rw [f.schedule]
  exact now.of_frugal f

theorem largestBandCost_congr {r q : RenditionLane} (hb : r.binding = q.binding) (hh : r.holds = q.holds) :
    largestBandCost r = largestBandCost q := by
  simp only [largestBandCost, hb, hh]

/-- What leaves the pool and the scheduler alone is frugal. -/
theorem Frugal.of_pool {s t : State} (hp : t.pool = s.pool) (hm : t.ms = s.ms) : Frugal s t where
  plan := pool_plan hp
  schedule := congrArg Scheduler.schedule hm
  pending := congrArg Scheduler.pendingSchedule hm
  balance r := (congrArg (fun m : Scheduler => m.balance.get r) hm).le
  cost l := (largestBandCost_congr (pool_binding hp l) (pool_holds hp l)).le

/-- What leaves the plan, the rendition lanes and the scheduler alone is frugal. -/
theorem Frugal.of_lanes {s t : State} (hp : t.fpc.plan = s.fpc.plan) (hl : t.rl = s.rl) (hm : t.ms = s.ms) : Frugal s t where
  plan := hp
  schedule := congrArg Scheduler.schedule hm
  pending := congrArg Scheduler.pendingSchedule hm
  balance r := (congrArg (fun m : Scheduler => m.balance.get r) hm).le
  cost l := (congrArg (fun p : PerRL RenditionLane => largestBandCost (p.get l)) hl).le

theorem frugal_modRl (s : State) (l : RLane) (f : RenditionLane → RenditionLane)
    (h : largestBandCost (f (s.rl.get l)) ≤ largestBandCost (s.rl.get l)) : Frugal s (s.modRl l f) where
  plan := rfl
  schedule := rfl
  pending := rfl
  balance _ := le_rfl
  cost j := by
    rw [State.modRl_rl, PerRL.get_set]
    split
    · next e => rw [e]; exact h
    · exact le_rfl

theorem frugal_setSlot (s : State) (k : Nat) (v : Slot) : Frugal s (s.setSlot k v) := .of_lanes rfl rfl rfl
theorem frugal_mapSlots (s : State) (f : Slot → Slot) : Frugal s (s.mapSlots f) := .of_lanes rfl rfl rfl

theorem frugal_modIl (s : State) (x : Src) (f : IngestLane → IngestLane) : Frugal s (s.modIl x f) := .of_lanes rfl rfl rfl

/-- A change of the scheduler that keeps its schedules and pays into no balance is frugal. -/
theorem frugal_ms (s : State) {m : Scheduler} (hs : m.schedule = s.ms.schedule) (hp : m.pendingSchedule = s.ms.pendingSchedule)
    (hb : ∀ r, m.balance.get r ≤ s.ms.balance.get r) : Frugal s { s with ms := m } :=
  ⟨rfl, hs, hp, hb, fun _ => le_rfl⟩

theorem frugal_answerHead (lane : Lane) (c : AnswerCode) (b : List Byte) (s : State) : Frugal s (answerHead lane c b s) :=
  .of_pool (pool_answerHead ..) (answerHead_ms ..)

theorem frugal_modLink (s : State) (lane : Lane) (f : Link → Link) : Frugal s (s.modLink lane f) :=
  .of_pool (pool_modLink ..) (State.modLink_ms ..)

/-! ### The Memory Scheduler -/

/-- A grant takes its cost from one balance and leaves the others alone (R135). -/
theorem chargeGrant_balance (m : Scheduler) (r : Requester) (c : Nat) (j : Job) :
    (chargeGrant m r c j).balance = m.balance.set r (m.balance.get r - c) := by
  unfold chargeGrant
  cases r with
  | rl l => dsimp only; split <;> rfl
  | _ => rfl

theorem chargeGrant_balance_le (m : Scheduler) (r : Requester) (c : Nat) (j : Job) (q : Requester) :
    (chargeGrant m r c j).balance.get q ≤ m.balance.get q := by
  rw [chargeGrant_balance, PerReq.get_set]
  split
  · next e => rw [e]; exact Nat.sub_le ..
  · exact le_rfl

theorem frugal_makeGrant (s : State) : Frugal s (makeGrant s) := by
  rcases makeGrant_cases s with e | ⟨r, c, -, -, -, -, e⟩ <;> rw [e]
  · exact .refl s
  · obtain ⟨hs, hp⟩ := chargeGrant_settings s.ms r c (jobOf s r)
    exact (Frugal.of_pool (pool_beginBand ..) (beginBand_ms ..)).after (frugal_ms s hs hp fun q => chargeGrant_balance_le ..)

theorem frugal_placeRequest (r : Requester) (c : Nat) (s : State) : Frugal s (placeRequest r c s) :=
  (frugal_makeGrant _).after (frugal_ms s rfl rfl fun _ => le_rfl)

theorem dramFree_balance (m : Scheduler) : (dramFree m).balance = m.balance := by
  rcases dramFree_cases m with ⟨-, e⟩ | ⟨-, e⟩ <;> rw [e]

theorem frugal_dramFree (s : State) : Frugal s { s with ms := dramFree s.ms } := by
  obtain ⟨hs, hp⟩ := dramFree_settings s.ms
  exact frugal_ms s hs hp fun r => by rw [dramFree_balance]

theorem frugal_endBurst (s : State) : Frugal s (endBurst s) := (frugal_makeGrant _).after (frugal_dramFree s)

theorem orphanBurst_balance (r : Requester) (m : Scheduler) : (orphanBurst r m).balance = m.balance := by
  unfold orphanBurst
  split
  · split <;> rfl
  · rfl

theorem frugal_dropRequests (r : Requester) (s : State) : Frugal s (dropRequests r s) := by
  obtain ⟨hs, hp⟩ := orphanBurst_settings r (withdraw r s.ms)
  exact frugal_ms s hs hp fun q => by rw [orphanBurst_balance]; rfl

/-! ### The pool -/

/-- The plan and every lane's largest band cost stand as they were. -/
def SameCosts (s t : State) : Prop :=
  t.fpc.plan = s.fpc.plan ∧ ∀ l, largestBandCost (t.rl.get l) = largestBandCost (s.rl.get l)

theorem SameCosts.of_pool {s t u : State} (e : t.pool = u.pool) (hp : u.fpc.plan = s.fpc.plan) (hl : u.rl = s.rl) : SameCosts s t :=
  ⟨(pool_plan e).trans hp, fun l => hl ▸ largestBandCost_congr (pool_binding e l) (pool_holds e l)⟩

theorem Move.sameCosts {s t : State} (m : Move s t) : SameCosts s t := by
  cases m with
  | same e => exact .of_pool e rfl rfl
  | serve _ _ _ _ e => exact .of_pool e rfl rfl
  | free _ _ _ _ _ e => exact .of_pool e rfl rfl

/-- An event's aftermath is frugal where it leaves the scheduler alone. -/
theorem frugal_of_aftermath {s t : State} (m : Aftermath s t) (hm : t.ms = s.ms) : Frugal s t := by
  obtain ⟨hp, hc⟩ := m.keeps (P := SameCosts s) (fun u v ⟨hp, hc⟩ m =>
    ⟨m.sameCosts.1.trans hp, fun l => (m.sameCosts.2 l).trans (hc l)⟩) ⟨rfl, fun _ => rfl⟩
  have scheduler : Frugal s { s with ms := t.ms } := by rw [hm]; exact .refl s
  exact { scheduler with plan := hp, cost := fun l => (hc l).le }

theorem frugal_serveWaitList (s : State) : Frugal s (serveWaitList s) :=
  frugal_of_aftermath (serveWaitList_aftermath s) (serveWaitList_ms s)

theorem frugal_examineSlot (was : Slot) (k : Nat) (s : State) : Frugal s (examineSlot was k s) :=
  frugal_of_aftermath (examineSlot_aftermath was k s) (examineSlot_ms ..)

theorem frugal_settle (before : List Slot) (s : State) : Frugal s (settle before s) :=
  frugal_of_aftermath (settle_settled before s).moves (settle_ms ..)

theorem frugal_leaveSource (l : RLane) (x : Src) (s : State) : Frugal s (leaveSource l x s) :=
  (frugal_settle ..).after (frugal_mapSlots ..)

/-- A lane that takes a frame latches the window it is bound with, which it already counts (R93). -/
theorem largestBandCost_claim {r : RenditionLane} {b : Binding} (hb : r.binding = some b) (k : Nat) (n : FrameNo) :
    largestBandCost { r with holds := r.holds ++ [⟨k, n, b.window⟩], mark := some n, pendingClaim := none } ≤ largestBandCost r := by
  have hr : ∀ w, ((∃ b, r.binding = some b ∧ b.window = w) ∨ ∃ e, e ∈ r.holds ∧ e.window = w) →
      2 + (w.w * 8 * w.d * 3 / 2 + 255) / 256 ≤ largestBandCost r := largestBandCost_le.mp le_rfl
  refine largestBandCost_le.mpr fun w hw => hr w ?_
  rcases hw with hw | ⟨e, he, rfl⟩
  · exact .inl hw
  · rcases List.mem_append.mp he with he | he
    · exact .inr ⟨e, he, rfl⟩
    · rw [List.mem_singleton.mp he]
      exact .inl ⟨b, hb, rfl⟩

theorem frugal_takeFrame {l : RLane} {b : Binding} {s : State} (hb : (s.rl.get l).binding = some b) (k : Nat) :
    Frugal s (takeFrame l b k s) := by
  rcases takeFrame_taken l b k s with e | ⟨cur, f, v, h, o, -, hs⟩
  · rw [e]; exact .refl s
  · have claimed : Frugal s (claimedState l b k f s) :=
      (frugal_modRl _ _ _ (largestBandCost_claim hb k f.number)).after (.of_lanes rfl rfl rfl)
    exact claimed.trans (frugal_of_aftermath hs.moves (takeFrame_ms ..))

theorem frugal_startAnalysis (s : State) : Frugal s (startAnalysis s) := by
  rcases startAnalysis_cases s with e | ⟨k, rest, -, -, -, e⟩ | ⟨k, rest, f, -, -, -, e⟩ <;> rw [e]
  · exact .refl s
  · exact .of_lanes rfl rfl rfl
  · exact (frugal_placeRequest ..).after (.of_lanes rfl rfl rfl)

/-! ### The completion of an analysis -/

theorem frugal_servePendingClaims (x : Src) (k : Nat) (s : State) : Frugal s (servePendingClaims x k s) := by
  refine foldl_inv (Frugal s) _ (fun t l ht => ?_) rlAll s (.refl s)
  split
  · next b p hb hp =>
    split
    · exact ht.trans (frugal_takeFrame hb k)
    · exact ht
  · exact ht

theorem raised_ms (f : SealedFrame) (v : Verdict) (why : Option ChapterReason) (s : State) : (raised f v why s).ms = s.ms := by
  unfold raised
  dsimp only
  split <;> split <;> simp

theorem announced_ms (k : Nat) (f : SealedFrame) (v : Verdict) (s : State) : (announced k f v s).ms = s.ms := by
  unfold announced
  dsimp only
  rw [sendReady_ms]
  split <;> exact supersede_ms f.source k f (chaptered f v s) s

theorem frugal_announced (k : Nat) (f : SealedFrame) (v : Verdict) (s : State) : Frugal s (announced k f v s) := by
  have hs : Frugal s (supersede f.source k f (chaptered f v s) s) := by
    rw [supersede_eq]
    exact .of_lanes rfl rfl rfl
  exact hs.trans (.of_pool (pool_announced ..) ((announced_ms ..).trans (supersede_ms ..).symm))

theorem frugal_completeFrame (k : Nat) (f : SealedFrame) (v : Verdict) (s : State) : Frugal s (completeFrame k f v s) := by
  have hb : Frugal s (servePendingClaims f.source k (raised f v (decision f v s) (announced k f v s))) :=
    (frugal_announced k f v s).trans ((Frugal.of_pool (pool_raised ..) (raised_ms ..)).trans (frugal_servePendingClaims ..))
  rw [completeFrame_eq]
  dsimp only
  split
  · split
    · exact hb
    · exact hb.trans (frugal_examineSlot ..)
  · exact hb

theorem frugal_withCtx (c : Option AnalysisCtx) (s : State) : Frugal s (withCtx c s) := .of_lanes rfl rfl rfl

theorem frugal_completeAnalysis (c : AnalysisCtx) (s : State) : Frugal s (completeAnalysis c s) := by
  have ha : Frugal s (analysed c s) := .of_pool (pool_analysed c s) rfl
  rw [completeAnalysis_eq]
  refine (frugal_startAnalysis _).after ((frugal_withCtx none _).after ?_)
  split
  · exact ha.trans (frugal_completeFrame ..)
  · exact ha

theorem frugal_rowStep (c : AnalysisCtx) (s : State) : Frugal s (rowStep c s) := by
  unfold rowStep
  dsimp only
  split
  · exact (frugal_placeRequest ..).after (.of_lanes rfl rfl rfl)
  · exact (frugal_completeAnalysis ..).after (.of_lanes rfl rfl rfl)

/-! ### The reset of a lane -/

theorem frugal_resetIngestLane (x : Src) (s : State) : Frugal s (resetIngestLane x s) := by
  have hc : Frugal s (clearedLane x s) := (frugal_dropRequests (.il x) s).trans (.of_lanes rfl rfl rfl)
  rw [resetIngestLane_eq]
  split
  · exact (frugal_serveWaitList _).after ((frugal_setSlot ..).after hc)
  · exact hc

theorem frugal_resetRenditionLane (l : RLane) (s : State) : Frugal s (resetRenditionLane l s) := by
  have hl : Frugal s ((dropRequests (.rl l) s).modRl l resetRenditionRecord) :=
    (frugal_modRl _ _ _ (Nat.zero_le _)).after (frugal_dropRequests ..)
  unfold resetRenditionLane
  exact (frugal_settle ..).after (hl.trans (.of_lanes rfl rfl rfl))

theorem frugal_resetLane (lane : Lane) (s : State) : Frugal s (resetLane lane s) := by
  have hf : Frugal s (flagged lane s) := .of_lanes rfl rfl rfl
  cases lane with
  | il x => exact hf.trans (frugal_resetIngestLane x _)
  | rl l => exact hf.trans (frugal_resetRenditionLane l _)

end Sys2Proof.Machine
end

section
/-! SUPPORT for O53. The requests of the lanes, and the commands that neither set a cap nor bind a lane, are frugal. -/

namespace Sys2Proof.Machine

open Sys2Proof Sys2Proof.Claims

/-! ### Ingest lanes -/

theorem frugal_serveOpen (x : Src) (p : Pts) (c : OpenChoice) (s : State) : Frugal s (serveOpen x p c s) :=
  (Frugal.of_pool (pool_serveOpen x p c s) ((serveOpen_ms ..).trans (fillSlot_ms ..).symm)).after (.of_lanes rfl rfl rfl)

theorem frugal_waitOrDrop (x : Src) (tag : Byte) (p : Pts) (s : State) : Frugal s (waitOrDrop x tag p s) := by
  unfold waitOrDrop
  dsimp only
  split
  · exact (frugal_answerHead ..).after (.of_lanes rfl rfl rfl)
  · exact .of_lanes rfl rfl rfl

theorem frugal_openBody (x : Src) (r : Request) (s : State) : Frugal s (openBody x r s) := by
  unfold openBody
  split
  · exact frugal_answerHead ..
  · split
    · exact frugal_answerHead ..
    · split
      · exact frugal_answerHead ..
      · dsimp only
        split
        · exact frugal_serveOpen ..
        · exact frugal_waitOrDrop ..

theorem frugal_putBody (x : Src) (r : Request) (s : State) : Frugal s (putBody x r s) := by
  unfold putBody
  split
  · exact frugal_answerHead ..
  · split
    · exact frugal_answerHead ..
    · dsimp only
      split
      · exact frugal_answerHead ..
      · split
        · exact frugal_answerHead ..
        · exact (frugal_placeRequest ..).after (frugal_modIl ..)

theorem frugal_sealSlot (x : Src) (k : Nat) (y : Src) (p : Pts) (s : State) : Frugal s (sealSlot x k y p s) := by
  unfold sealSlot
  exact (frugal_startAnalysis _).after ((frugal_answerHead ..).after (.of_lanes rfl rfl rfl))

theorem frugal_sealBody (x : Src) (r : Request) (s : State) : Frugal s (sealBody x r s) := by
  unfold sealBody
  split
  · exact frugal_answerHead ..
  · split
    · exact frugal_answerHead ..
    · split
      · split
        · exact frugal_answerHead ..
        · exact frugal_sealSlot ..
      · exact frugal_answerHead ..

theorem frugal_abandonBody (x : Src) (r : Request) (s : State) : Frugal s (abandonBody x r s) := by
  unfold abandonBody
  split
  · exact frugal_answerHead ..
  · split
    · exact frugal_answerHead ..
    · exact (frugal_serveWaitList _).after ((frugal_answerHead ..).after ((frugal_modIl ..).after (frugal_setSlot ..)))

theorem frugal_finishRow (x : Src) (s : State) : Frugal s (finishRow x s) := by
  unfold finishRow
  split
  · exact .refl s
  · exact (frugal_answerHead ..).after ((frugal_modIl ..).after (frugal_setSlot ..))

/-! ### Rendition lanes -/

/-- A lane that leaves its binding counts the windows of its holds alone (R93). -/
theorem largestBandCost_unbound (r : RenditionLane) (m : Option FrameNo) :
    largestBandCost { r with binding := none, mark := m } ≤ largestBandCost r := by
  refine largestBandCost_le.mpr fun w hw => largestBandCost_le.mp le_rfl w (hw.imp ?_ id)
  rintro ⟨b, hb, -⟩
  cases hb

theorem frugal_unbindLane (l : RLane) (x : Src) (s : State) :
    Frugal s (leaveSource l x (s.modRl l (fun r => { r with binding := none, mark := none }))) :=
  (frugal_leaveSource ..).after (frugal_modRl _ _ _ (largestBandCost_unbound ..))

theorem frugal_unbindBody (l : RLane) (r : Request) (s : State) : Frugal s (unbindBody l r s) := by
  unfold unbindBody
  split
  · exact frugal_answerHead ..
  · split
    · exact frugal_answerHead ..
    · split
      · exact frugal_answerHead ..
      · exact (frugal_answerHead ..).after (frugal_unbindLane ..)

theorem frugal_claimChecked {l : RLane} {r : Request} {body : Binding → State → State} {s : State}
    (h : ∀ b, (s.rl.get l).binding = some b → Frugal s (body b s)) : Frugal s (claimChecked l r body s) := by
  unfold claimChecked
  split
  · exact frugal_answerHead ..
  · split
    · exact frugal_answerHead ..
    · split
      · exact frugal_answerHead ..
      · next b hb =>
        split
        · exact frugal_answerHead ..
        · exact h b hb

section
variable {l : RLane} {b : Binding} {s : State} (hb : (s.rl.get l).binding = some b)
include hb

theorem frugal_nextBody (tag : Byte) : Frugal s (nextBody l tag b s) := by
  unfold nextBody
  split
  · exact frugal_takeFrame hb _
  · unfold waitClaim
    dsimp only
    split
    · exact frugal_answerHead ..
    · exact frugal_modRl _ _ _ le_rfl

theorem frugal_latestBody : Frugal s (latestBody l b s) := by
  unfold latestBody
  split
  · exact frugal_answerHead ..
  · split
    · exact frugal_takeFrame hb _
    · exact frugal_answerHead ..

theorem frugal_numberBody (n : FrameNo) : Frugal s (numberBody l n b s) := by
  unfold numberBody
  split
  · exact frugal_answerHead ..
  · split
    · exact frugal_answerHead ..
    · split
      · exact frugal_answerHead ..
      · split
        · exact frugal_takeFrame hb _
        · exact frugal_answerHead ..

end

/-- A lane that gives holds back has no dearer band (R93). -/
theorem largestBandCost_filter (r : RenditionLane) (p : Hold → Bool) :
    largestBandCost { r with holds := r.holds.filter p } ≤ largestBandCost r :=
  largestBandCost_le.mpr fun w hw => largestBandCost_le.mp le_rfl w
    (hw.imp id fun ⟨e, he, hw⟩ => ⟨e, List.mem_of_mem_filter he, hw⟩)

theorem frugal_releaseBody (l : RLane) (r : Request) (s : State) : Frugal s (releaseBody l r s) := by
  unfold releaseBody
  split
  · exact frugal_answerHead ..
  · dsimp only
    split
    · exact frugal_answerHead ..
    · exact (frugal_answerHead ..).after ((frugal_settle ..).after
        ((frugal_setSlot ..).after (frugal_modRl _ _ _ (largestBandCost_filter ..))))

theorem frugal_fetchBody (l : RLane) (r : Request) (s : State) : Frugal s (fetchBody l r s) := by
  unfold fetchBody
  split
  · exact frugal_answerHead ..
  · split
    · exact frugal_answerHead ..
    · dsimp only
      split
      · exact frugal_answerHead ..
      · split
        · exact (frugal_placeRequest ..).after (frugal_modRl _ _ _ le_rfl)
        · exact frugal_modRl _ _ _ le_rfl

theorem frugal_maskChecked (l : RLane) (r : Request) (m : Nat → State → TileSet) (s : State) : Frugal s (maskChecked l r m s) :=
  .of_pool (maskChecked_pool ..) (maskChecked_ms ..)

theorem frugal_subscribeBody (l : RLane) (r : Request) (s : State) : Frugal s (subscribeBody l r s) :=
  .of_pool (subscribeBody_pool ..) (subscribeBody_ms ..)

/-! ### The transmitter -/

theorem frugal_bandSent (l : RLane) (s : State) : Frugal s (bandSent l s) := by
  unfold bandSent
  split
  · exact frugal_modRl _ _ _ le_rfl
  · split
    · exact (frugal_answerHead ..).after (frugal_modRl _ _ _ le_rfl)
    · exact (frugal_placeRequest ..).after (frugal_modRl _ _ _ le_rfl)

theorem frugal_beginSend (lane : Lane) (s : State) : Frugal s (beginSend lane s) := .of_pool (pool_beginSend ..) (beginSend_ms ..)

theorem frugal_endSend (lane : Lane) (s : State) : Frugal s (endSend lane s) := by
  unfold endSend
  split
  · exact .refl s
  · dsimp only
    split
    · exact (frugal_bandSent ..).after (frugal_modLink ..)
    · exact frugal_modLink ..

/-! ### Commands while RSTN is high -/

/-- What holds of s, and of whatever a command makes of s while RSTN is high, holds after the command. -/
theorem running_inv {P : State → Prop} {s t : State} {f : State → Host.Outcome State Fault Refusal} (hs : P s)
    (h : running s f = .next t) (hf : f s = .next t → P t) : P t := by
  rcases running_eq s f with ⟨-, e⟩ | ⟨-, e⟩
  · cases e.symm.trans h
    exact hs
  · exact hf (e.symm.trans h)

theorem ingestRequest_frugal {want : ReqKind} {lane : Lane} {body : Src → Request → State → State} {s t : State}
    (h : ingestRequest want lane body s = .next t) (hb : ∀ x r, Frugal s (body x r s)) : Frugal s t := by
  rcases ingestRequest_cases want lane body s with e | ⟨l, -, e⟩ | ⟨x, r, -, -, -, -, e⟩ <;> cases e.symm.trans h
  · exact .refl s
  · exact frugal_answerHead ..
  · exact hb x r

theorem renditionRequest_frugal {test : Request → Bool} {lane : Lane} {body : RLane → Request → State → State} {s t : State}
    (h : renditionRequest test lane body s = .next t) (hb : ∀ l r, Frugal s (body l r s)) : Frugal s t := by
  rcases renditionRequest_cases test lane body s with e | ⟨x, -, e⟩ | ⟨l, r, -, -, -, -, e⟩ <;> cases e.symm.trans h
  · exact .refl s
  · exact frugal_answerHead ..
  · exact hb l r

theorem execRecordReceived_frugal {lane : Lane} {bytes : List Byte} {s t : State} (h : execRecordReceived lane bytes s = .next t) :
    Frugal s t := by
  refine running_inv (.refl s) h fun h => ?_
  split at h
  · split at h <;> cases h
    · exact .of_pool (pool_queueRequest ..) (queueRequest_ms ..)
    · unfold countBadRecord
      dsimp only
      split
      · exact (frugal_resetLane ..).after (frugal_modLink ..)
      · exact frugal_modLink ..
  · cases h; exact .refl s

theorem execLinkTrainingComplete_frugal {lane : Lane} {s t : State} (h : execLinkTrainingComplete lane s = .next t) : Frugal s t := by
  refine running_inv (.refl s) h fun h => ?_
  cases h
  exact frugal_modLink ..

theorem execLinkLoss_frugal {lane : Lane} {s t : State} (h : execLinkLoss lane s = .next t) : Frugal s t := by
  refine running_inv (.refl s) h fun h => ?_
  split at h <;> cases h
  · exact frugal_resetLane ..
  · exact .refl s

theorem execMalformedRequest_frugal {lane : Lane} {s t : State} (h : execMalformedRequest lane s = .next t) : Frugal s t := by
  refine running_inv (.refl s) h fun h => ?_
  split at h
  · cases h; exact .refl s
  · split at h <;> cases h
    · exact frugal_answerHead ..
    · exact .refl s

theorem execOpenWaitDeadline_frugal {x : Src} {s t : State} (h : execOpenWaitDeadline x s = .next t) : Frugal s t := by
  refine running_inv (.refl s) h fun h => ?_
  split at h
  · cases h; exact .refl s
  · split at h <;> cases h
    · exact (frugal_answerHead ..).after (.of_lanes rfl rfl rfl)
    · exact .refl s

theorem execClaimWaitDeadline_frugal {l : RLane} {s t : State} (h : execClaimWaitDeadline l s = .next t) : Frugal s t := by
  refine running_inv (.refl s) h fun h => ?_
  split at h
  · cases h; exact .refl s
  · split at h <;> cases h
    · exact (frugal_answerHead ..).after (frugal_modRl _ _ _ le_rfl)
    · exact .refl s

/-! ### Bursts -/

theorem execIngestBurstComplete_frugal {s t : State} (h : execIngestBurstComplete s = .next t) : Frugal s t := by
  have written : ∀ a data, Frugal s { s with mem := writeBytes s.mem a data } := fun a data => .of_lanes rfl rfl rfl
  refine running_inv (.refl s) h fun h => ?_
  dsimp only at h
  split at h
  · split at h
    · split at h
      · cases h; exact .refl s
      · split at h <;> cases h
        refine (frugal_endBurst _).after ?_
        split
        · exact (frugal_finishRow ..).after (written ..)
        · exact written ..
    · cases h; exact .refl s
  · cases h; exact .refl s

theorem execDetectorRowBurstComplete_frugal {s t : State} (h : execDetectorRowBurstComplete s = .next t) : Frugal s t := by
  refine running_inv (.refl s) h fun h => ?_
  split at h
  · split at h
    · split at h
      · cases h; exact .refl s
      · split at h
        · split at h
          · cases h; exact frugal_endBurst s
          · split at h <;> cases h
            exact (frugal_rowStep ..).after (frugal_endBurst s)
        · cases h; exact frugal_endBurst s
    · cases h; exact .refl s
  · cases h; exact .refl s

theorem execBandBurstComplete_frugal {s t : State} (h : execBandBurstComplete s = .next t) : Frugal s t := by
  have ended : Frugal s { s with band := none } := .of_lanes rfl rfl rfl
  refine running_inv (.refl s) h fun h => ?_
  dsimp only at h
  repeat' split at h
  all_goals cases h
  · exact .refl s
  · exact (frugal_endBurst _).after ((Frugal.of_pool (pool_bufferBand ..) (bufferBand_ms ..)).after ended)
  · exact (frugal_endBurst _).after ended
  · exact (frugal_endBurst _).after ended
  · exact .refl s
  · exact .refl s

theorem execTransmitRecord_frugal {lane : Lane} {part : SendPart} {s t : State} (h : execTransmitRecord lane part s = .next t) :
    Frugal s t := by
  refine running_inv (.refl s) h fun h => ?_
  cases part with
  | start => cases h; exact frugal_beginSend ..
  | finish => cases h; exact frugal_endSend ..
  | whole =>
    dsimp only at h
    split at h <;> cases h
    · exact .refl s
    · exact (frugal_endSend ..).after (frugal_beginSend ..)

/-! ### Time -/

theorem frugal_modCadence (s : State) (x : Src) (f : Cadence → Cadence) : Frugal s (s.modCadence x f) := .of_lanes rfl rfl rfl

theorem execPeriodEvent_frugal {s t : State} (h : execPeriodEvent s = .next t) : Frugal s t := by
  have due : Frugal s { s with
      tcu := { s.tcu with nextPeriod := later s.tcu.nextPeriod Config.periodMicros }, ms := { s.ms with refreshDue := true } } :=
    ⟨rfl, rfl, rfl, fun _ => le_rfl, fun _ => le_rfl⟩
  refine running_inv (.refl s) h fun h => ?_
  dsimp only at h
  split at h
  · cases h
    split
    · exact due.trans (frugal_dramFree _)
    · exact due
  · cases h; exact .refl s

theorem execCadenceExpiry_frugal {x : Src} {s t : State} (h : execCadenceExpiry x s = .next t) : Frugal s t := by
  refine running_inv (.refl s) h fun h => ?_
  dsimp only at h
  split at h
  · cases h; exact .refl s
  · split at h <;> cases h
    · refine (frugal_modCadence ..).after ?_
      split
      · exact .of_pool (pool_repeatFrame ..) (repeatFrame_ms ..)
      · exact .refl s
    · exact .refl s

theorem execCueEdge_frugal {e : CueEdge} {s t : State} (h : execCueEdge e s = .next t) : Frugal s t := by
  refine running_inv (.refl s) h fun h => ?_
  dsimp only at h
  split at h <;> cases h
  · exact (Frugal.of_pool (pool_captureCue _) (captureCue_ms _)).after (.of_lanes rfl rfl rfl)
  · exact .refl s

theorem execSpacingHoldEnd_frugal {s t : State} (h : execSpacingHoldEnd s = .next t) : Frugal s t := by
  refine running_inv (.refl s) h fun h => ?_
  dsimp only at h
  split at h
  · cases h; exact .refl s
  · split at h <;> cases h
    · exact .of_lanes rfl rfl rfl
    · exact .refl s

theorem execCueAgeExpiry_frugal {s t : State} (h : execCueAgeExpiry s = .next t) : Frugal s t := by
  refine running_inv (.refl s) h fun h => ?_
  dsimp only at h
  split at h <;> cases h
  · exact .refl s
  · exact .of_lanes rfl rfl rfl

theorem execMarkerPulseEnd_frugal {pin : MarkerPin} {s t : State} (h : execMarkerPulseEnd pin s = .next t) : Frugal s t := by
  refine running_inv (.refl s) h fun h => ?_
  cases h
  exact .of_lanes rfl rfl rfl

theorem frugal_tick (s : State) : Frugal s (tick s) := ⟨rfl, rfl, rfl, fun _ => le_rfl, fun _ => le_rfl⟩

/-- At the fall of RSTN the work under way ends, and what the caps are made of stands (R195). -/
theorem execRstnAsserted_frugal {s t : State} (h : execRstnAsserted s = .next t) : Frugal s t := by
  cases h
  refine ⟨rfl, rfl, rfl, fun _ => le_rfl, fun l => ?_⟩
  dsimp only
  rw [PerRL.get_map]
  exact (largestBandCost_congr rfl rfl).le

end Sys2Proof.Machine
end

section
/-! O53: the commands that set a cap or bind a lane, and every step keeps the credit balances and the caps. -/

namespace Sys2Proof.Machine

open Sys2Proof Sys2Proof.Claims

/-! ### The two laws across a change -/

/-- From s to t each of the two laws is kept. -/
structure LawsKept (s t : State) : Prop where
  credit : CreditLaw s → CreditLaw t
  cap : CapLaw s → CapLaw t

theorem Frugal.lawsKept {s t : State} (f : Frugal s t) : LawsKept s t := ⟨fun h => h.of_frugal f, fun h => h.of_frugal f⟩

theorem LawsKept.refl (s : State) : LawsKept s s := ⟨id, id⟩

theorem LawsKept.trans {s t u : State} (h : LawsKept s t) (g : LawsKept t u) : LawsKept s u :=
  ⟨fun hs => g.credit (h.credit hs), fun hs => g.cap (h.cap hs)⟩

/-! ### SET_PLAN and SET_SCHEDULE -/

/-- A lane with neither a binding nor a hold has no band (R93). -/
theorem largestBandCost_eq_zero {r : RenditionLane} (hb : r.binding = none) (hh : r.holds = []) : largestBandCost r = 0 := by
  simp only [largestBandCost, hb, hh, List.map_nil, List.foldl_nil]

theorem takePlan_cost (p : Plan) (s : State) (l : RLane) : largestBandCost ((takePlan p s).rl.get l) = 0 := by
  simp only [takePlan, PerRL.get_map]
  exact largestBandCost_eq_zero rfl rfl

/-- A plan that allowances honour is honoured once it is taken, which unbinds every lane (R2, R4). -/
theorem Honoured.takePlan {a : PerReq Nat} {p : Plan} {s : State} (h : Honoured a s) (hp : capsHonour a p = true) :
    Honoured a (takePlan p s) := by
  refine ⟨h.1, fun q hq => ?_, fun l => (takePlan_cost p s l).le.trans (Nat.zero_le _)⟩
  cases hq
  exact hp

theorem replySetPlan_lawsKept (p : List Byte) (s : State) : LawsKept s (replySetPlan p s).state := by
  by_cases hv : planValid (planOf p) s.ms = true
  · by_cases hi : poolIdle s = true
    · obtain ⟨-, -, -, -, hnow, hnext⟩ := planValid_iff.mp hv
      rw [replySetPlan_taken hv hi]
      exact ⟨id, fun ⟨now, next⟩ => ⟨now.takePlan hnow, fun c hc => (next c hc).takePlan (hnext c hc)⟩⟩
    · rw [replySetPlan_busy hv hi]; exact .refl s
  · rw [replySetPlan_invalid hv]; exact .refl s

/-- The checks of a schedule are those that the pending schedule has to pass (R139, R140). -/
theorem replySetSchedule_lawsKept (p : List Byte) (s : State) : LawsKept s (replySetSchedule p s).state := by
  cases hq : priorityOf (field p 14 1) with
  | none => rw [replySetSchedule_code hq]; exact .refl s
  | some q =>
    rw [replySetSchedule_eq hq]
    split
    · next hv =>
      refine ⟨id, fun ⟨now, _⟩ => ⟨now, fun c hc => ?_⟩⟩
      cases hc
      exact scheduleValid_iff.mp hv
    · exact .refl s

/-! ### SOFT_RESET -/

theorem softResetPart_lawsKept (s : State) : LawsKept s (softResetPart s) := by
  have hcost : ∀ l, largestBandCost ((softResetPart s).rl.get l) = 0 := fun l => by
    rw [softResetPart_rl]
    exact largestBandCost_eq_zero rfl rfl
  have honoured : ∀ {a}, Honoured a s → Honoured a (softResetPart s) := fun ⟨hsum, hplan, _⟩ =>
    ⟨hsum, hplan, fun l => (hcost l).le.trans (Nat.zero_le _)⟩
  exact ⟨fun _ r => (softScheduler_balance s.ms r).le, fun ⟨now, next⟩ => ⟨honoured now, fun c hc => honoured (next c hc)⟩⟩

/-! ### The command table -/

theorem LawsKept.ofLength {len : Nat} {p : List Byte} {r : Reply} {s : State} (h : LawsKept s r.state) :
    LawsKept s (Machine.ofLength len p r s).state := by
  rcases ofLength_cases len p r s with e | e <;> rw [e]
  · exact h
  · exact .refl s

/-- A command that leaves the pool and the scheduler alone keeps both laws. -/
theorem LawsKept.of_pool {s t : State} (hp : t.pool = s.pool) (hm : t.ms = s.ms) : LawsKept s t := (Frugal.of_pool hp hm).lawsKept

theorem writeAttr_ms (x : Src) (v : Attr) (t : Nat) (s : State) : (writeAttr x v t s).ms = s.ms := by
  unfold writeAttr
  dsimp only
  split
  · rfl
  · split <;> rfl

theorem replySetDetect_ms (p : List Byte) (s : State) : (replySetDetect p s).state.ms = s.ms := by
  unfold replySetDetect; split <;> rfl

theorem replySetRoute_ms (p : List Byte) (s : State) : (replySetRoute p s).state.ms = s.ms := by
  unfold replySetRoute; split <;> rfl

theorem replySetCue_ms (p : List Byte) (s : State) : (replySetCue p s).state.ms = s.ms := by
  unfold replySetCue; split <;> rfl

theorem replySetCadence_ms (p : List Byte) (s : State) : (replySetCadence p s).state.ms = s.ms := by
  unfold replySetCadence; split <;> rfl

theorem replySetChapters_ms (p : List Byte) (s : State) : (replySetChapters p s).state.ms = s.ms := by
  unfold replySetChapters; split <;> rfl

theorem replySetLaneLimits_ms (p : List Byte) (s : State) : (replySetLaneLimits p s).state.ms = s.ms := by
  simp only [replySetLaneLimits, done, State.modRl_ms, State.modIl_ms]

theorem replyAttrWrite_ms (p : List Byte) (s : State) : (replyAttrWrite p s).state.ms = s.ms := by
  unfold replyAttrWrite
  split
  · exact foldl_keep State.ms _ (fun u i => writeAttr_ms _ _ _ u) _ _
  · rfl

theorem replyBadgeWrite_ms (p : List Byte) (s : State) : (replyBadgeWrite p s).state.ms = s.ms := by
  simp only [replyBadgeWrite, done]
  split <;> rfl

theorem replyReadCounters_ms (p : List Byte) (s : State) : (replyReadCounters p s).state.ms = s.ms := by
  simp only [replyReadCounters, done]
  split <;> rfl

theorem replyLaneReset_lawsKept (p : List Byte) (s : State) : LawsKept s (replyLaneReset p s).state := by
  unfold replyLaneReset
  split
  · exact .refl s
  · exact (frugal_resetLane ..).lawsKept

theorem commandReply_lawsKept (code : Byte) (p : List Byte) (s : State) : LawsKept s (commandReply code p s).state := by
  unfold commandReply
  split
  · exact (replySetPlan_lawsKept p s).ofLength
  · exact (LawsKept.of_pool (pool_replySetDetect p s) (replySetDetect_ms p s)).ofLength
  · exact (replySetSchedule_lawsKept p s).ofLength
  · exact (LawsKept.of_pool (pool_replySetRoute p s) (replySetRoute_ms p s)).ofLength
  · exact (LawsKept.of_pool (pool_replySetCue p s) (replySetCue_ms p s)).ofLength
  · exact (LawsKept.of_pool (pool_replySetCadence p s) (replySetCadence_ms p s)).ofLength
  · exact (LawsKept.of_pool (pool_replySetChapters p s) (replySetChapters_ms p s)).ofLength
  · exact (LawsKept.of_pool (pool_replySetLaneLimits p s) (replySetLaneLimits_ms p s)).ofLength
  · exact (LawsKept.of_pool (pool_replyAttrWrite p s) (replyAttrWrite_ms p s)).ofLength
  · exact (LawsKept.of_pool (pool_replyAttrRead p s) (congrArg State.ms (replyAttrRead_settings p s))).ofLength
  · exact (LawsKept.of_pool (pool_replyBadgeWrite p s) (replyBadgeWrite_ms p s)).ofLength
  · exact LawsKept.ofLength (.refl s)
  · exact (LawsKept.of_pool (pool_replyReadCounters p s) (replyReadCounters_ms p s)).ofLength
  · exact LawsKept.ofLength (.of_pool rfl rfl)
  · exact LawsKept.ofLength (.of_pool rfl rfl)
  · exact LawsKept.ofLength (.refl s)
  · exact LawsKept.ofLength (.of_pool rfl rfl)
  · exact LawsKept.ofLength (softResetPart_lawsKept s)
  · exact (replyLaneReset_lawsKept p s).ofLength
  · exact .refl s

/-- The management frame is no part of either law. -/
theorem closeFrame_lawsKept (staged : List Byte) (code : Byte) (p : List Byte) (m : Mlu) (s : State) :
    LawsKept s (closeFrame staged (commandReply code p { s with mlu := m })) := by
  have opened : LawsKept s { s with mlu := m } := .of_pool rfl rfl
  have closed : ∀ r : Reply, LawsKept r.state (closeFrame staged r) := fun r => .of_pool rfl rfl
  exact opened.trans ((commandReply_lawsKept code p _).trans (closed _))

theorem takeCommand_lawsKept {code : Byte} {p : List Byte} {s t : State} (h : takeCommand code p s = .next t) : LawsKept s t := by
  refine running_inv (.refl s) h fun h => ?_
  cases h
  exact closeFrame_lawsKept _ code p { newFrame s.mlu with staging := code :: BitVec.ofNat 8 p.length :: p } s

theorem moveFrame_lawsKept (m : Sys2Proof.FrameMove) (s : State) : LawsKept s (moveFrame m s) := by
  cases m with
  | whole staged =>
    simp only [moveFrame]
    split <;> exact .of_pool rfl rfl
  | fall => exact .of_pool rfl rfl
  | byte b =>
    rcases clockByte_cases b s with ⟨-, e⟩ | ⟨-, -, e⟩ | ⟨-, code, len, p, -, -, e⟩ | ⟨-, f, -, -, e⟩ <;> rw [moveFrame, e]
    · exact .refl s
    · exact .of_pool rfl rfl
    · exact closeFrame_lawsKept _ code p { s.mlu with staging := code :: len :: p } s
    · exact .of_pool rfl rfl
  | rise => exact .of_pool rfl rfl

/-! ### BIND -/

/-- A lane bound with a window counts that window and its holds (R93). -/
theorem largestBandCost_bind (r : RenditionLane) (x : Src) (v : Window) (m : Option FrameNo) {n : Nat} (hr : largestBandCost r ≤ n)
    (hv : bandCost v ≤ n) : largestBandCost { r with binding := some { source := x, window := v }, mark := m } ≤ n := by
  refine largestBandCost_le.mpr fun w hw => ?_
  rcases hw with ⟨b, hb, rfl⟩ | hw
  · cases hb
    exact (bandCost_eq v).ge.trans hv
  · exact largestBandCost_le.mp hr w (.inr hw)

/-- After what BIND leaves of the old binding, the lane's record takes source and window (R92). -/
theorem applyBind_bound (l : RLane) (x : Src) (v : Window) (s : State) :
    ∃ u m, Frugal s u ∧ applyBind l x v s =
      u.modRl l (fun r => { r with binding := some { source := x, window := v }, mark := m }) := by
  cases hb : (s.rl.get l).binding with
  | none => exact ⟨s, _, .refl s, applyBind_unbound x v hb⟩
  | some b =>
    by_cases hx : b.source = x
    · exact ⟨s, (s.rl.get l).mark, .refl s, applyBind_same v hb hx⟩
    · exact ⟨_, _, frugal_unbindLane l b.source s, applyBind_other v hb hx⟩

/-- A lane bound with a window within its cap leaves the allowances honoured (R93). -/
theorem Honoured.applyBind {a : PerReq Nat} {s : State} (h : Honoured a s) {l : RLane} {v : Window}
    (hv : bandCost v ≤ capOf (a.rl.get l)) (x : Src) : Honoured a (applyBind l x v s) := by
  obtain ⟨u, m, hu, e⟩ := applyBind_bound l x v s
  obtain ⟨hsum, hplan, hcost⟩ := h.of_frugal hu
  rw [e]
  refine ⟨hsum, hplan, fun j => ?_⟩
  rw [State.modRl_rl, PerRL.get_set]
  split
  · next hj => subst hj; exact largestBandCost_bind _ x v m (hcost j) hv
  · exact hcost j

theorem applyBind_lawsKept {l : RLane} {v : Window} {s : State} (hv : costTooHigh s.ms l (bandCost v) = false) (x : Src) :
    LawsKept s (applyBind l x v s) := by
  obtain ⟨hnow, hnext⟩ := not_not.mp (mt costTooHigh_eq_true.mpr (Bool.eq_false_iff.mp hv))
  have hm : (applyBind l x v s).ms = s.ms := applyBind_ms ..
  refine ⟨fun h r => ?_, fun ⟨now, next⟩ => ⟨?_, fun c hc => ?_⟩⟩
  · rw [hm]; exact h r
  · rw [hm]; exact now.applyBind hnow x
  · rw [hm] at hc
    exact (next c hc).applyBind (hnext c hc) x

theorem bindBody_lawsKept (l : RLane) (r : Request) (s : State) : LawsKept s (bindBody l r s) := by
  have answered : ∀ code body, LawsKept s (answerHead (.rl l) code body s) := fun code body =>
    (frugal_answerHead (.rl l) code body s).lawsKept
  unfold bindBody
  split
  · exact answered ..
  · split
    · exact answered ..
    · dsimp only
      split
      · exact answered ..
      · split
        · exact answered ..
        · next hv =>
          split
          · exact answered ..
          · exact (applyBind_lawsKept (by simpa using hv) _).trans (frugal_answerHead ..).lawsKept

theorem execBind_lawsKept {lane : Lane} {s t : State} (h : execBind lane s = .next t) : LawsKept s t := by
  rcases renditionRequest_cases (isKind .bind) lane bindBody s with e | ⟨x, -, e⟩ | ⟨l, r, -, -, -, -, e⟩ <;> cases e.symm.trans h
  · exact .refl s
  · exact (frugal_answerHead ..).lawsKept
  · exact bindBody_lawsKept l r s

/-! ### The end of a refresh -/

/-- The pending schedule comes into force, and balances above its caps are clipped to them (R134 step 1). -/
theorem applySchedule_lawsKept (s : State) : LawsKept s { s with ms := applySchedule s.ms } := by
  unfold applySchedule
  split
  · exact .refl s
  · next c hc =>
    refine ⟨fun _ r => ?_, fun ⟨_, next⟩ => ⟨next c hc, fun d hd => (nomatch hd)⟩⟩
    exact (PerReq.get_map₂ ..).le.trans (min_le_right ..)

/-- A refill ends at the caps in force (R134 step 2). -/
theorem refill_lawsKept (s : State) : LawsKept s { s with ms := refill s.ms } :=
  ⟨fun _ _ => (PerReq.get_map₂ ..).le.trans (min_le_right ..), id⟩

theorem execRefreshComplete_lawsKept {s t : State} (h : execRefreshComplete s = .next t) : LawsKept s t := by
  refine running_inv (.refl s) h fun h => ?_
  split at h
  · split at h <;> cases h
    · exact ((applySchedule_lawsKept s).trans (refill_lawsKept _)).trans (frugal_endBurst _).lawsKept
    · exact .refl s
  · cases h; exact .refl s

/-! ### Every command -/

theorem exec_lawsKept {c : Instr} {s t : State} (h : exec c s = .next t) : LawsKept s t := by
  cases c with
  | powerOnReset | boardReset => cases h; exact ⟨fun _ => creditLaw_reset, fun _ => capLaw_reset⟩
  | rstnAsserted => exact (execRstnAsserted_frugal h).lawsKept
  | setPlan p | setDetect p | setSchedule p | setRoute p | setCue p | setCadence p | setChapters p | setLaneLimits p
  | attrWrite p | attrRead p | badgeWrite p | readStatus p | readCounters p | popChapters p | readMarkers p
  | readResetCause p | clearResetCause p | softReset p | laneReset p => exact takeCommand_lawsKept h
  | unknownCommand code p =>
    simp only [exec, execUnknownCommand] at h
    split at h
    · cases h; exact .refl s
    · exact takeCommand_lawsKept h
  | managementFrameCutOff m =>
    simp only [exec, execManagementFrameCutOff] at h
    split at h <;> cases h
    · exact .of_pool rfl rfl
    · exact moveFrame_lawsKept m s
  | linkTrainingComplete lane => exact (execLinkTrainingComplete_frugal h).lawsKept
  | linkLoss lane => exact (execLinkLoss_frugal h).lawsKept
  | recordReceived lane bytes => exact (execRecordReceived_frugal h).lawsKept
  | malformedRequest lane => exact (execMalformedRequest_frugal h).lawsKept
  | openFrame lane => exact (ingestRequest_frugal h fun x r => frugal_openBody x r s).lawsKept
  | putRows lane => exact (ingestRequest_frugal h fun x r => frugal_putBody x r s).lawsKept
  | sealFrame lane => exact (ingestRequest_frugal h fun x r => frugal_sealBody x r s).lawsKept
  | abandonFrame lane => exact (ingestRequest_frugal h fun x r => frugal_abandonBody x r s).lawsKept
  | bind lane => exact execBind_lawsKept h
  | unbind lane => exact (renditionRequest_frugal h fun l r => frugal_unbindBody l r s).lawsKept
  | claimNext lane =>
    exact (renditionRequest_frugal h fun l r => frugal_claimChecked fun b hb => frugal_nextBody hb r.tag).lawsKept
  | claimLatest lane => exact (renditionRequest_frugal h fun l r => frugal_claimChecked fun b hb => frugal_latestBody hb).lawsKept
  | claimNumber lane =>
    exact (renditionRequest_frugal h fun l r => frugal_claimChecked fun b hb => frugal_numberBody hb _).lawsKept
  | release lane => exact (renditionRequest_frugal h fun l r => frugal_releaseBody l r s).lawsKept
  | fetch lane => exact (renditionRequest_frugal h fun l r => frugal_fetchBody l r s).lawsKept
  | fetchMaskFrame lane => exact (renditionRequest_frugal h fun l r => frugal_maskChecked l r _ s).lawsKept
  | fetchMaskSince lane => exact (renditionRequest_frugal h fun l r => frugal_maskChecked l r _ s).lawsKept
  | subscribe lane => exact (renditionRequest_frugal h fun l r => frugal_subscribeBody l r s).lawsKept
  | openWaitDeadline x => exact (execOpenWaitDeadline_frugal h).lawsKept
  | claimWaitDeadline l => exact (execClaimWaitDeadline_frugal h).lawsKept
  | ingestBurstComplete => exact (execIngestBurstComplete_frugal h).lawsKept
  | detectorRowBurstComplete => exact (execDetectorRowBurstComplete_frugal h).lawsKept
  | bandBurstComplete => exact (execBandBurstComplete_frugal h).lawsKept
  | transmitRecord lane part => exact (execTransmitRecord_frugal h).lawsKept
  | periodEvent => exact (execPeriodEvent_frugal h).lawsKept
  | refreshComplete => exact execRefreshComplete_lawsKept h
  | cadenceExpiry x => exact (execCadenceExpiry_frugal h).lawsKept
  | cueEdge e => exact (execCueEdge_frugal h).lawsKept
  | spacingHoldEnd => exact (execSpacingHoldEnd_frugal h).lawsKept
  | cueAgeExpiry => exact (execCueAgeExpiry_frugal h).lawsKept
  | markerPulseEnd pin => exact (execMarkerPulseEnd_frugal h).lawsKept

theorem step_lawsKept {s t : State} (h : step s = .next t) : LawsKept s t := by
  rcases step_cases s with ⟨c, rest, -, e⟩ | ⟨-, -, e⟩ | ⟨c, -, -, -, e⟩ | ⟨-, -, -, e⟩ <;> have h := e.symm.trans h
  · have taken : LawsKept s { s with pending := rest } := .of_pool rfl rfl
    exact taken.trans (exec_lawsKept h)
  · cases h; exact .refl s
  · exact exec_lawsKept h
  · cases h; exact (frugal_tick s).lawsKept

/-- Settles O53: all but the commands that set a cap or bind a lane leave no more to spend and no dearer band (`Frugal`), and those
few check against the caps what they change. -/
theorem stepKeepsCreditsAndCaps : Obligations.StepKeepsCreditsAndCaps :=
  ⟨fun _ _ hs h => (step_lawsKept h).credit hs, fun _ _ hs h => (step_lawsKept h).cap hs⟩

end Sys2Proof.Machine
end

section
/-! O40: the order of the grants, what a grant charges, and what follows a request and the end of a burst. -/

namespace Sys2Proof.Machine

open Sys2Proof Sys2Proof.Claims

/-! ### The order of the grants -/

/-- The requesters in R136's order: ingest from the ingest pointer, the detector, the priority lane, and the other rendition lanes
round robin. -/
def grantOrder (m : Scheduler) : List Requester :=
  [.il m.ingestPtr, .il (otherSrc m.ingestPtr), .det] ++ m.schedule.priority.toList.map .rl ++
    ((robinOrder m.roundRobin).filter (fun l => decide (m.schedule.priority ≠ some l))).map .rl

theorem find?_priority (m : Scheduler) : (m.schedule.priority.toList.map Requester.rl).find? (eligible m) =
    (m.schedule.priority.filter (fun l => eligible m (.rl l))).map .rl := by
  cases m.schedule.priority with
  | none => rfl
  | some l => cases h : eligible m (.rl l) <;> simp [h, Option.filter]

theorem find?_robin (m : Scheduler) (p : Option RLane) (ls : List RLane) :
    ((ls.filter (fun l => decide (p ≠ some l))).map Requester.rl).find? (eligible m) =
      (ls.find? (fun l => decide (p ≠ some l) && eligible m (.rl l))).map .rl := by
  simp only [List.find?_map, List.find?_filter, Function.comp_def, Bool.decide_and, Bool.decide_eq_true]

/-- A grant choice is the first eligible requester in the order (R136). -/
theorem grantChoice_eq (m : Scheduler) : grantChoice m = (grantOrder m).find? (eligible m) := by
  unfold grantChoice grantOrder
  rw [List.find?_append, List.find?_append, find?_priority, find?_robin]
  dsimp only
  cases h₀ : eligible m (.il m.ingestPtr) with
  | true => simp [h₀]
  | false =>
    cases h₁ : eligible m (.il (otherSrc m.ingestPtr)) with
    | true => simp [h₀, h₁]
    | false =>
      cases h₂ : eligible m .det with
      | true => simp [h₀, h₁, h₂]
      | false =>
        cases m.schedule.priority.filter (fun l => eligible m (.rl l)) with
        | some l => simp [h₀, h₁, h₂]
        | none => simp [h₀, h₁, h₂]

/-! ### A grant -/

theorem makeGrant_busy {s : State} (h : s.ms.dram ≠ .idle ∨ s.ms.refreshDue = true) : makeGrant s = s := by
  rcases makeGrant_cases s with e | ⟨r, c, hd, hf, -⟩
  · exact e
  · rcases h with h | h
    · exact absurd hd h
    · exact absurd (h.symm.trans hf) Bool.noConfusion

theorem makeGrant_none {s : State} (h : grantChoice s.ms = none) : makeGrant s = s := by
  rcases makeGrant_cases s with e | ⟨r, c, -, -, hr, -⟩
  · exact e
  · cases h.symm.trans hr

theorem makeGrant_granted {s : State} {r : Requester} {c : Nat} (hd : s.ms.dram = .idle) (hf : s.ms.refreshDue = false)
    (hr : grantChoice s.ms = some r) (hw : s.ms.waiting.get r = some c) :
    makeGrant s = beginBand r { s with ms := chargeGrant s.ms r c (jobOf s r) } := by
  simp only [makeGrant, hd, hf, hr, hw]

theorem chargeGrant_il (m : Scheduler) (x : Src) (c : Nat) (j : Job) : chargeGrant m (.il x) c j = { m with
    balance := m.balance.set (.il x) (m.balance.get (.il x) - c)
    waiting := m.waiting.set (.il x) none
    dram := .burst { job := j, cost := c, remaining := c, live := true }
    ingestPtr := if x = .s0 then .s1 else .s0 } := by
  cases x <;> rfl

theorem chargeGrant_rl (m : Scheduler) (l : RLane) (c : Nat) (j : Job) : chargeGrant m (.rl l) c j = { m with
    balance := m.balance.set (.rl l) (m.balance.get (.rl l) - c)
    waiting := m.waiting.set (.rl l) none
    dram := .burst { job := j, cost := c, remaining := c, live := true }
    roundRobin := if m.schedule.priority = some l then m.roundRobin else nextRL l } := by
  simp only [chargeGrant]
  split <;> rfl

/-! ### A request and the end of a burst -/

theorem placeRequest_eq (s : State) (r : Requester) (c : Nat) : placeRequest r c s =
    if s.ms.dram = .idle ∧ s.ms.refreshDue = false then
      makeGrant { s with ms := { s.ms with waiting := s.ms.waiting.set r (some c) } }
    else { s with ms := { s.ms with waiting := s.ms.waiting.set r (some c) } } := by
  split
  · rfl
  · next h =>
    refine makeGrant_busy ?_
    rwa [not_and_or, Bool.not_eq_false] at h

theorem endBurst_refreshes {s : State} (h : s.ms.refreshDue = true) : endBurst s = { s with ms := { s.ms with
    dram := .refresh 500, refreshDue := false, room := s.ms.room - dramLoad s.ms.dram } } := by
  rw [endBurst, dramFree, if_pos h]
  exact makeGrant_busy (.inl Dram.noConfusion)

theorem endBurst_grants {s : State} (h : s.ms.refreshDue = false) : endBurst s = makeGrant { s with ms := { s.ms with
    dram := .idle, room := s.ms.room - dramLoad s.ms.dram } } := by
  rw [endBurst, dramFree, if_neg (by simp [h])]

/-- Settles O40: the choice is the first eligible requester in the order, and each kind of requester is charged as its grant says. -/
theorem grantOrderAndCharge : Obligations.GrantOrderAndCharge := by
  refine ⟨fun s h => makeGrant_busy h, ?_, ?_, ?_⟩
  · intro s hd hf ready p q l0 robin others job begun order
    have horder : order = grantOrder s.ms := by
      have hq : q = otherSrc p := by simp only [q]; cases p <;> rfl
      simp only [order, grantOrder, hq, others, robin, robinOrder, l0]
      cases s.ms.schedule.priority <;> rfl
    have hchoice : order.find? ready = grantChoice s.ms :=
      (congrArg (List.find? (eligible s.ms)) horder).trans (grantChoice_eq s.ms).symm
    rw [hchoice]
    refine ⟨makeGrant_none, fun r c hr hw => ?_⟩
    rw [makeGrant_granted hd hf hr hw]
    cases r with
    | il x => rw [chargeGrant_il]; rfl
    | det => rfl
    | rl l =>
      have hband : begun l = openBand s l := by
        simp only [begun, openBand]
        cases (s.rl.get l).fetch <;> rfl
      rw [chargeGrant_rl]
      dsimp only
      rw [hband]
      rfl
  · exact fun s r c => ⟨PerReq.get_set_self .., fun q hq => PerReq.get_set_other _ hq _, placeRequest_eq s r c⟩
  · intro s left
    have hleft : left = dramLoad s.ms.dram := by
      simp only [left]
      cases s.ms.dram <;> rfl
    rw [hleft]
    exact ⟨endBurst_refreshes, endBurst_grants⟩

end Sys2Proof.Machine
end

section
/-! O1, O41: the step, and the period event with its refresh. -/

namespace Sys2Proof.Machine

open Sys2Proof Sys2Proof.Claims

/-! ### The step -/

theorem step_front {s : State} {c : Instr} {rest : List Instr} (h : s.pending = c :: rest) :
    step s = exec c { s with pending := rest } := by
  simp only [step, h]

theorem step_idle {s : State} (h : s.pending = []) : step s = idleStep s := by
  simp only [step, h]

theorem idleStep_low {s : State} (h : s.rstnLow = true) : idleStep s = .next s := by
  simp only [idleStep, running, h, if_true]

theorem idleStep_due {s : State} {c : Instr} (h : s.rstnLow = false) (hd : dueEvent s = some c) : idleStep s = exec c s := by
  rw [idleStep, running_of_high h, hd]

theorem idleStep_tick {s : State} (h : s.rstnLow = false) (hd : dueEvent s = none) : idleStep s = .next (tick s) := by
  rw [idleStep, running_of_high h, hd]

/-- Settles O1: the front command, and on an empty queue RSTN, a due event and the tick. -/
theorem stepTakesTheFrontCommand : Obligations.StepTakesTheFrontCommand := by
  exact ⟨fun c rest s h => step_front h, fun s hp hr => (step_idle hp).trans (idleStep_low hr),
    fun s c hp hr hd => (step_idle hp).trans (idleStep_due hr hd),
    fun s hp hr hd => (step_idle hp).trans (idleStep_tick hr hd)⟩

/-! ### PERIOD_EVENT -/

theorem execPeriodEvent_early {s : State} (hr : s.rstnLow = false) (h : 2147483648 ≤ (s.tcu.time - s.tcu.nextPeriod).toNat) :
    execPeriodEvent s = .next s := by
  rw [execPeriodEvent, running_of_high hr]
  exact if_neg (mt atOrBefore_iff.mp (Nat.not_lt.mpr h))

/-- At its deadline a period event makes the refresh due, which begins at once on an IDLE DRAM (R133, R145). -/
theorem execPeriodEvent_due {s : State} (hr : s.rstnLow = false) (h : (s.tcu.time - s.tcu.nextPeriod).toNat < 2147483648) :
    execPeriodEvent s = .next { s with
      tcu := { s.tcu with nextPeriod := s.tcu.nextPeriod + 1000 }
      ms := if s.ms.dram = .idle then { s.ms with dram := .refresh 500, refreshDue := false }
        else { s.ms with refreshDue := true } } := by
  rw [execPeriodEvent, running_of_high hr]
  refine (if_pos (atOrBefore_iff.mpr h)).trans ?_
  cases hd : s.ms.dram with
  | idle => simp only [dramFree, hd, dramLoad, if_true]; rfl
  | burst b => simp only [hd, reduceCtorEq, if_false]; rfl
  | refresh n => simp only [hd, reduceCtorEq, if_false]; rfl

/-! ### REFRESH_COMPLETE -/

/-- The balances that the end of a refresh leaves: clipped to the caps of a pending schedule, and refilled up to the caps in force
(R134). -/
theorem refill_applySchedule_balance (m : Scheduler) (r : Requester) :
    (refill (applySchedule m)).balance.get r = match m.pendingSchedule with
      | none => min (m.balance.get r + m.schedule.allowance.get r) (2 * m.schedule.allowance.get r)
      | some c => min (min (m.balance.get r) (2 * c.allowance.get r) + c.allowance.get r) (2 * c.allowance.get r) := by
  cases hp : m.pendingSchedule with
  | none => simp only [refill, applySchedule, hp, PerReq.get_map₂, capOf]
  | some c => simp only [refill, applySchedule, hp, PerReq.get_map₂, capOf]

/-- But for the balances, the end of a refresh puts the pending schedule into force and nothing else (R134). -/
theorem refill_applySchedule (m : Scheduler) : refill (applySchedule m) = { m with
    balance := (refill (applySchedule m)).balance
    schedule := m.pendingSchedule.getD m.schedule
    pendingSchedule := none } := by
  cases hp : m.pendingSchedule with
  | none => simp only [refill, applySchedule, hp, Option.getD_none]
  | some c => simp only [refill, applySchedule, hp, Option.getD_some]

theorem execRefreshComplete_ends {s : State} {n : Nat} (hr : s.rstnLow = false) (hd : s.ms.dram = .refresh n)
    (hroom : n ≤ s.ms.room) : execRefreshComplete s = .next (endBurst { s with ms := refill (applySchedule s.ms) }) := by
  have hmay : mayComplete s.ms = true := (mayComplete_iff _).mpr (by rw [hd]; exact hroom)
  rw [execRefreshComplete, running_of_high hr]
  simp only [hd, hmay, if_true]

/-- Settles O41: the event before its deadline and at it, and the end of the refresh with its balances. -/
theorem periodAndRefresh : Obligations.PeriodAndRefresh := by
  refine fun s hr => ⟨fun h => execPeriodEvent_due hr h, fun h => execPeriodEvent_early hr h, fun n hd hroom hdue => ?_⟩
  refine ⟨(refill (applySchedule s.ms)).balance, refill_applySchedule_balance s.ms, ?_⟩
  refine (execRefreshComplete_ends hr hd hroom).trans ?_
  rw [refill_applySchedule]
  simp only [endBurst, dramFree, hd, hdue, dramLoad]
  rfl

end Sys2Proof.Machine
end

section
/-! SUPPORT for O2. The operations that leave the queue of waiting commands and the time counter as they are. -/

namespace Sys2Proof.Machine

open Sys2Proof Sys2Proof.Claims

/-! ### No time and no command taken -/

/-- From s to t the queue of waiting commands stands as it was, and so does the time counter (R143). -/
structure Timeless (s t : State) : Prop where
  pending : t.pending = s.pending
  time : t.tcu.time = s.tcu.time

theorem Timeless.refl (s : State) : Timeless s s := ⟨rfl, rfl⟩

theorem Timeless.trans {s t u : State} (h : Timeless s t) (g : Timeless t u) : Timeless s u :=
  ⟨g.pending.trans h.pending, g.time.trans h.time⟩

/-- `Timeless.trans` with the later change first, which says what the state between is. -/
theorem Timeless.after {s t u : State} (g : Timeless t u) (h : Timeless s t) : Timeless s u := h.trans g

/-- An operation that leaves the whole Timebase and Cadence Unit alone takes no time. -/
theorem Timeless.of_tcu {s t : State} (hp : t.pending = s.pending) (ht : t.tcu = s.tcu) : Timeless s t := ⟨hp, congrArg Timebase.time ht⟩

theorem timeless_answerHead (lane : Lane) (c : AnswerCode) (b : List Byte) (s : State) : Timeless s (answerHead lane c b s) :=
  .of_tcu (answerHead_pending ..) (answerHead_tcu ..)

theorem timeless_modLink (s : State) (lane : Lane) (f : Link → Link) : Timeless s (s.modLink lane f) :=
  .of_tcu (State.modLink_pending ..) (State.modLink_tcu ..)

theorem timeless_resetLane (lane : Lane) (s : State) : Timeless s (resetLane lane s) :=
  .of_tcu (resetLane_pending ..) (resetLane_tcu ..)

theorem timeless_endBurst (s : State) : Timeless s (endBurst s) := .of_tcu (endBurst_pending s) (endBurst_tcu s)

/-! ### Cadence and cues -/

theorem timeless_modCadence (s : State) (x : Src) (f : Cadence → Cadence) : Timeless s (s.modCadence x f) := ⟨rfl, rfl⟩

theorem timeless_fireEvent (e : Event) (s : State) : Timeless s (fireEvent e s) := .of_tcu (fireEvent_pending ..) (fireEvent_tcu ..)

theorem timeless_checkStall (x : Src) (n : FrameNo) (s : State) : Timeless s (checkStall x n s) := by
  unfold checkStall
  dsimp only
  split
  · exact (timeless_fireEvent ..).after (timeless_modCadence ..)
  · exact .refl s

theorem timeless_repeatFrame (x : Src) (n : FrameNo) (s : State) : Timeless s (repeatFrame x n s) := by
  have sent : ∀ c u, Timeless u (sendRepeats x n c u) := fun c u => .of_tcu (sendRepeats_pending ..) (sendRepeats_tcu ..)
  exact (timeless_checkStall ..).after ((sent ..).after ⟨rfl, rfl⟩)

theorem timeless_captureCue (s : State) : Timeless s (captureCue s) := by
  unfold captureCue
  dsimp only
  split
  · exact (timeless_fireEvent ..).after ⟨rfl, rfl⟩
  · exact ⟨rfl, rfl⟩

/-! ### Seals and analyses -/

theorem timeless_startAnalysis (s : State) : Timeless s (startAnalysis s) := .of_tcu (startAnalysis_pending s) (startAnalysis_tcu s)

theorem timeless_completeAnalysis (c : AnalysisCtx) (s : State) : Timeless s (completeAnalysis c s) := by
  have analysed : Timeless s (analysed c s) := ⟨rfl, rfl⟩
  have dropped : ∀ u, Timeless u (withCtx none u) := fun _ => ⟨rfl, rfl⟩
  rw [completeAnalysis_eq]
  refine ((timeless_startAnalysis _).after (dropped _)).after ?_
  split
  · exact (Timeless.of_tcu (completeFrame_pending ..) (completeFrame_tcu ..)).after analysed
  · exact analysed

theorem timeless_rowStep (c : AnalysisCtx) (s : State) : Timeless s (rowStep c s) := by
  unfold rowStep
  dsimp only
  split
  · exact .of_tcu (placeRequest_pending ..) (placeRequest_tcu ..)
  · exact (timeless_completeAnalysis ..).after ⟨rfl, rfl⟩

theorem timeless_sealSlot (x : Src) (k : Nat) (y : Src) (p : Pts) (s : State) : Timeless s (sealSlot x k y p s) := by
  unfold sealSlot
  dsimp only
  refine ((timeless_startAnalysis _).after (timeless_answerHead ..)).after ?_
  exact ⟨rfl, rfl⟩

theorem timeless_sealBody (x : Src) (r : Request) (s : State) : Timeless s (sealBody x r s) := by
  unfold sealBody
  split
  · exact timeless_answerHead ..
  · split
    · exact timeless_answerHead ..
    · split
      · split
        · exact timeless_answerHead ..
        · exact timeless_sealSlot ..
      · exact timeless_answerHead ..

/-! ### The command table -/

theorem Timeless.ofLength {len : Nat} {p : List Byte} {r : Reply} {s : State} (h : Timeless s r.state) :
    Timeless s (Machine.ofLength len p r s).state := by
  rcases ofLength_cases len p r s with e | e <;> rw [e]
  · exact h
  · exact .refl s

/-- Taking a plan restarts the numbering and not the time counter (R4, R143). -/
theorem replySetPlan_timeless (p : List Byte) (s : State) : Timeless s (replySetPlan p s).state := by
  have taken : ∀ q, Timeless s (takePlan q s) := fun _ => ⟨rfl, rfl⟩
  simp only [replySetPlan]
  split
  · exact .refl s
  · split
    · exact .refl s
    · exact taken _

theorem replySetDetect_timeless (p : List Byte) (s : State) : Timeless s (replySetDetect p s).state := by
  unfold replySetDetect
  split <;> exact ⟨rfl, rfl⟩

theorem replySetSchedule_timeless (p : List Byte) (s : State) : Timeless s (replySetSchedule p s).state := by
  unfold replySetSchedule
  split
  · exact .refl s
  · dsimp only
    split <;> exact ⟨rfl, rfl⟩

theorem replySetRoute_timeless (p : List Byte) (s : State) : Timeless s (replySetRoute p s).state := by
  unfold replySetRoute
  split <;> exact ⟨rfl, rfl⟩

theorem replySetCue_timeless (p : List Byte) (s : State) : Timeless s (replySetCue p s).state := by
  unfold replySetCue
  split <;> exact ⟨rfl, rfl⟩

theorem replySetCadence_timeless (p : List Byte) (s : State) : Timeless s (replySetCadence p s).state := by
  unfold replySetCadence
  split
  · exact .refl s
  · exact timeless_modCadence ..

theorem replySetChapters_timeless (p : List Byte) (s : State) : Timeless s (replySetChapters p s).state := by
  unfold replySetChapters
  split <;> exact ⟨rfl, rfl⟩

theorem replySetLaneLimits_timeless (p : List Byte) (s : State) : Timeless s (replySetLaneLimits p s).state := by
  rw [replySetLaneLimits_eq]
  exact ⟨rfl, rfl⟩

theorem timeless_writeAttr (x : Src) (v : Attr) (t : Nat) (s : State) : Timeless s (writeAttr x v t s) := by
  unfold writeAttr
  dsimp only
  split <;> exact ⟨rfl, rfl⟩

theorem replyAttrWrite_timeless (p : List Byte) (s : State) : Timeless s (replyAttrWrite p s).state := by
  unfold replyAttrWrite
  split
  · exact foldl_inv (Timeless s) _ (fun u i hu => hu.trans (timeless_writeAttr ..)) _ s (.refl s)
  · exact .refl s

theorem replyAttrRead_timeless (p : List Byte) (s : State) : Timeless s (replyAttrRead p s).state := by
  rw [replyAttrRead_settings]
  exact .refl s

theorem replyBadgeWrite_timeless (p : List Byte) (s : State) : Timeless s (replyBadgeWrite p s).state := by
  simp only [replyBadgeWrite, done]
  split <;> exact ⟨rfl, rfl⟩

theorem replyReadCounters_timeless (p : List Byte) (s : State) : Timeless s (replyReadCounters p s).state := by
  simp only [replyReadCounters, done]
  split <;> exact ⟨rfl, rfl⟩

theorem replyLaneReset_timeless (p : List Byte) (s : State) : Timeless s (replyLaneReset p s).state := by
  unfold replyLaneReset
  split
  · exact .refl s
  · exact timeless_resetLane ..

theorem commandReply_timeless (code : Byte) (p : List Byte) (s : State) : Timeless s (commandReply code p s).state := by
  unfold commandReply
  split
  · exact (replySetPlan_timeless p s).ofLength
  · exact (replySetDetect_timeless p s).ofLength
  · exact (replySetSchedule_timeless p s).ofLength
  · exact (replySetRoute_timeless p s).ofLength
  · exact (replySetCue_timeless p s).ofLength
  · exact (replySetCadence_timeless p s).ofLength
  · exact (replySetChapters_timeless p s).ofLength
  · exact (replySetLaneLimits_timeless p s).ofLength
  · exact (replyAttrWrite_timeless p s).ofLength
  · exact (replyAttrRead_timeless p s).ofLength
  · exact (replyBadgeWrite_timeless p s).ofLength
  · exact Timeless.ofLength (.refl s)
  · exact (replyReadCounters_timeless p s).ofLength
  · exact Timeless.ofLength ⟨rfl, rfl⟩
  · exact Timeless.ofLength ⟨rfl, rfl⟩
  · exact Timeless.ofLength (.refl s)
  · exact Timeless.ofLength ⟨rfl, rfl⟩
  · exact Timeless.ofLength ⟨rfl, rfl⟩
  · exact (replyLaneReset_timeless p s).ofLength
  · exact .refl s

theorem closeFrame_timeless (staged : List Byte) (code : Byte) (p : List Byte) (m : Mlu) (s : State) :
    Timeless s (closeFrame staged (commandReply code p { s with mlu := m })) := by
  obtain ⟨hp, ht⟩ := commandReply_timeless code p { s with mlu := m }
  exact ⟨hp, ht⟩

theorem takeCommand_timeless {code : Byte} {p : List Byte} {s t : State} (h : takeCommand code p s = .next t) : Timeless s t := by
  refine running_inv (.refl s) h fun h => ?_
  cases h
  exact closeFrame_timeless _ code p { newFrame s.mlu with staging := code :: BitVec.ofNat 8 p.length :: p } s

theorem moveFrame_timeless (m : Sys2Proof.FrameMove) (s : State) : Timeless s (moveFrame m s) := by
  cases m with
  | whole staged =>
    simp only [moveFrame]
    split <;> exact ⟨rfl, rfl⟩
  | fall => exact ⟨rfl, rfl⟩
  | byte b =>
    rcases clockByte_cases b s with ⟨-, e⟩ | ⟨-, -, e⟩ | ⟨-, code, len, p, -, -, e⟩ | ⟨-, f, -, -, e⟩ <;> rw [moveFrame, e]
    · exact .refl s
    · exact ⟨rfl, rfl⟩
    · exact closeFrame_timeless _ code p { s.mlu with staging := code :: len :: p } s
    · exact ⟨rfl, rfl⟩
  | rise => exact ⟨rfl, rfl⟩

theorem execManagementFrameCutOff_timeless {m : Sys2Proof.FrameMove} {s t : State} (h : execManagementFrameCutOff m s = .next t) :
    Timeless s t := by
  unfold execManagementFrameCutOff at h
  split at h <;> cases h
  · exact ⟨rfl, rfl⟩
  · exact moveFrame_timeless m s

end Sys2Proof.Machine
end

section
/-! O2: every command but a start-up reset leaves the queue and the time counter alone, and none but the end of an ingest burst writes
the DRAM. -/

namespace Sys2Proof.Machine

open Sys2Proof Sys2Proof.Claims

/-! ### Links and requests -/

theorem ingestRequest_timeless {want : ReqKind} {lane : Lane} {body : Src → Request → State → State} {s t : State}
    (h : ingestRequest want lane body s = .next t) (hb : ∀ x r, Timeless s (body x r s)) : Timeless s t := by
  rcases ingestRequest_cases want lane body s with e | ⟨l, -, e⟩ | ⟨x, r, -, -, -, -, e⟩ <;> cases e.symm.trans h
  · exact .refl s
  · exact timeless_answerHead ..
  · exact hb x r

theorem renditionRequest_timeless {test : Request → Bool} {lane : Lane} {body : RLane → Request → State → State} {s t : State}
    (h : renditionRequest test lane body s = .next t) (hb : ∀ l r, Timeless s (body l r s)) : Timeless s t := by
  rcases renditionRequest_cases test lane body s with e | ⟨x, -, e⟩ | ⟨l, r, -, -, -, -, e⟩ <;> cases e.symm.trans h
  · exact .refl s
  · exact timeless_answerHead ..
  · exact hb l r

theorem claimChecked_timeless {l : RLane} {r : Request} {g : Binding → State → State} {s : State}
    (hp : ∀ b, (g b s).pending = s.pending) (ht : ∀ b, (g b s).tcu = s.tcu) : Timeless s (claimChecked l r g s) :=
  .of_tcu (claimChecked_pending l r g s hp) (claimChecked_tcu l r g s ht)

theorem execRecordReceived_timeless {lane : Lane} {bytes : List Byte} {s t : State} (h : execRecordReceived lane bytes s = .next t) :
    Timeless s t := by
  refine running_inv (.refl s) h fun h => ?_
  split at h
  · split at h <;> cases h
    · exact .of_tcu (queueRequest_pending ..) (queueRequest_tcu ..)
    · exact .of_tcu (countBadRecord_pending ..) (countBadRecord_tcu ..)
  · cases h; exact .refl s

theorem execLinkTrainingComplete_timeless {lane : Lane} {s t : State} (h : execLinkTrainingComplete lane s = .next t) : Timeless s t := by
  refine running_inv (.refl s) h fun h => ?_
  cases h
  exact timeless_modLink ..

theorem execLinkLoss_timeless {lane : Lane} {s t : State} (h : execLinkLoss lane s = .next t) : Timeless s t := by
  refine running_inv (.refl s) h fun h => ?_
  split at h <;> cases h
  · exact timeless_resetLane ..
  · exact .refl s

theorem execMalformedRequest_timeless {lane : Lane} {s t : State} (h : execMalformedRequest lane s = .next t) : Timeless s t := by
  refine running_inv (.refl s) h fun h => ?_
  split at h
  · cases h; exact .refl s
  · split at h <;> cases h
    · exact timeless_answerHead ..
    · exact .refl s

theorem execOpenWaitDeadline_timeless {x : Src} {s t : State} (h : execOpenWaitDeadline x s = .next t) : Timeless s t := by
  refine running_inv (.refl s) h fun h => ?_
  split at h
  · cases h; exact .refl s
  · split at h <;> cases h
    · exact (timeless_answerHead ..).after ⟨rfl, rfl⟩
    · exact .refl s

theorem execClaimWaitDeadline_timeless {l : RLane} {s t : State} (h : execClaimWaitDeadline l s = .next t) : Timeless s t := by
  refine running_inv (.refl s) h fun h => ?_
  split at h
  · cases h; exact .refl s
  · split at h <;> cases h
    · exact (timeless_answerHead ..).after ⟨rfl, rfl⟩
    · exact .refl s

/-! ### Bursts and the transmitter -/

theorem execIngestBurstComplete_timeless {s t : State} (h : execIngestBurstComplete s = .next t) : Timeless s t := by
  have written : ∀ a data, Timeless s { s with mem := writeBytes s.mem a data } := fun _ _ => ⟨rfl, rfl⟩
  have finished : ∀ x u, Timeless u (finishRow x u) := fun x u => .of_tcu (finishRow_pending x u) (finishRow_tcu x u)
  refine running_inv (.refl s) h fun h => ?_
  dsimp only at h
  split at h
  · split at h
    · split at h
      · cases h; exact .refl s
      · split at h <;> cases h
        refine (timeless_endBurst _).after ?_
        split
        · exact (finished ..).after (written ..)
        · exact written ..
    · cases h; exact .refl s
  · cases h; exact .refl s

theorem execDetectorRowBurstComplete_timeless {s t : State} (h : execDetectorRowBurstComplete s = .next t) : Timeless s t := by
  refine running_inv (.refl s) h fun h => ?_
  split at h
  · split at h
    · split at h
      · cases h; exact .refl s
      · split at h
        · split at h
          · cases h; exact timeless_endBurst s
          · split at h <;> cases h
            exact (timeless_rowStep ..).after (timeless_endBurst s)
        · cases h; exact timeless_endBurst s
    · cases h; exact .refl s
  · cases h; exact .refl s

theorem execBandBurstComplete_timeless {s t : State} (h : execBandBurstComplete s = .next t) : Timeless s t := by
  have ended : Timeless s { s with band := none } := ⟨rfl, rfl⟩
  refine running_inv (.refl s) h fun h => ?_
  dsimp only at h
  repeat' split at h
  all_goals cases h
  · exact .refl s
  · exact (timeless_endBurst _).after ((Timeless.of_tcu (bufferBand_pending ..) (bufferBand_tcu ..)).after ended)
  · exact (timeless_endBurst _).after ended
  · exact (timeless_endBurst _).after ended
  · exact .refl s
  · exact .refl s

theorem execTransmitRecord_timeless {lane : Lane} {part : SendPart} {s t : State} (h : execTransmitRecord lane part s = .next t) :
    Timeless s t := by
  have begun : Timeless s (beginSend lane s) := .of_tcu (beginSend_pending lane s) (beginSend_tcu lane s)
  have ended : ∀ u, Timeless u (endSend lane u) := fun u => .of_tcu (endSend_pending lane u) (endSend_tcu lane u)
  refine running_inv (.refl s) h fun h => ?_
  cases part with
  | start => cases h; exact begun
  | finish => cases h; exact ended s
  | whole =>
    dsimp only at h
    split at h <;> cases h
    · exact .refl s
    · exact (ended _).after begun

theorem execRefreshComplete_timeless {s t : State} (h : execRefreshComplete s = .next t) : Timeless s t := by
  refine running_inv (.refl s) h fun h => ?_
  split at h
  · split at h <;> cases h
    · exact (timeless_endBurst _).after ⟨rfl, rfl⟩
    · exact .refl s
  · cases h; exact .refl s

/-! ### Deadlines and the cue line -/

theorem execPeriodEvent_timeless {s t : State} (h : execPeriodEvent s = .next t) : Timeless s t := by
  refine running_inv (.refl s) h fun h => ?_
  dsimp only at h
  split at h <;> cases h <;> exact ⟨rfl, rfl⟩

theorem execCadenceExpiry_timeless {x : Src} {s t : State} (h : execCadenceExpiry x s = .next t) : Timeless s t := by
  refine running_inv (.refl s) h fun h => ?_
  dsimp only at h
  split at h
  · cases h; exact .refl s
  · split at h <;> cases h
    · refine (timeless_modCadence ..).after ?_
      split
      · exact timeless_repeatFrame ..
      · exact .refl s
    · exact .refl s

theorem execCueEdge_timeless {e : CueEdge} {s t : State} (h : execCueEdge e s = .next t) : Timeless s t := by
  refine running_inv (.refl s) h fun h => ?_
  dsimp only at h
  split at h <;> cases h
  · exact (timeless_captureCue _).after ⟨rfl, rfl⟩
  · exact .refl s

theorem execSpacingHoldEnd_timeless {s t : State} (h : execSpacingHoldEnd s = .next t) : Timeless s t := by
  refine running_inv (.refl s) h fun h => ?_
  dsimp only at h
  split at h
  · cases h; exact .refl s
  · split at h <;> cases h <;> exact ⟨rfl, rfl⟩

theorem execCueAgeExpiry_timeless {s t : State} (h : execCueAgeExpiry s = .next t) : Timeless s t := by
  refine running_inv (.refl s) h fun h => ?_
  dsimp only at h
  split at h <;> cases h <;> exact ⟨rfl, rfl⟩

theorem execMarkerPulseEnd_timeless {pin : MarkerPin} {s t : State} (h : execMarkerPulseEnd pin s = .next t) : Timeless s t := by
  refine running_inv (.refl s) h fun h => ?_
  cases h
  exact ⟨rfl, rfl⟩

/-- At the fall of RSTN the time counter stands; it is set to 0 at the release (R195). -/
theorem execRstnAsserted_timeless {s t : State} (h : execRstnAsserted s = .next t) : Timeless s t := by
  cases h
  exact ⟨rfl, rfl⟩

/-! ### Every command -/

/-- Every command but the two start-up resets leaves the queue and the time counter alone. -/
theorem exec_timeless {c : Instr} {s t : State} (h : exec c s = .next t) (hc : isStartUp c = false) : Timeless s t := by
  cases c with
  | powerOnReset | boardReset => cases hc
  | rstnAsserted => exact execRstnAsserted_timeless h
  | setPlan p | setDetect p | setSchedule p | setRoute p | setCue p | setCadence p | setChapters p | setLaneLimits p
  | attrWrite p | attrRead p | badgeWrite p | readStatus p | readCounters p | popChapters p | readMarkers p
  | readResetCause p | clearResetCause p | softReset p | laneReset p => exact takeCommand_timeless h
  | unknownCommand code p =>
    simp only [exec, execUnknownCommand] at h
    split at h
    · cases h; exact .refl s
    · exact takeCommand_timeless h
  | managementFrameCutOff m => exact execManagementFrameCutOff_timeless h
  | linkTrainingComplete lane => exact execLinkTrainingComplete_timeless h
  | linkLoss lane => exact execLinkLoss_timeless h
  | recordReceived lane bytes => exact execRecordReceived_timeless h
  | malformedRequest lane => exact execMalformedRequest_timeless h
  | openFrame lane => exact ingestRequest_timeless h fun x r => .of_tcu (openBody_pending ..) (openBody_tcu ..)
  | putRows lane => exact ingestRequest_timeless h fun x r => .of_tcu (putBody_pending ..) (putBody_tcu ..)
  | sealFrame lane => exact ingestRequest_timeless h fun x r => timeless_sealBody ..
  | abandonFrame lane => exact ingestRequest_timeless h fun x r => .of_tcu (abandonBody_pending ..) (abandonBody_tcu ..)
  | bind lane => exact renditionRequest_timeless h fun l r => .of_tcu (bindBody_pending ..) (bindBody_tcu ..)
  | unbind lane => exact renditionRequest_timeless h fun l r => .of_tcu (unbindBody_pending ..) (unbindBody_tcu ..)
  | claimNext lane =>
    exact renditionRequest_timeless h fun l r => claimChecked_timeless (fun b => nextBody_pending ..) fun b => nextBody_tcu ..
  | claimLatest lane =>
    exact renditionRequest_timeless h fun l r => claimChecked_timeless (fun b => latestBody_pending ..) fun b => latestBody_tcu ..
  | claimNumber lane =>
    exact renditionRequest_timeless h fun l r => claimChecked_timeless (fun b => numberBody_pending ..) fun b => numberBody_tcu ..
  | release lane => exact renditionRequest_timeless h fun l r => .of_tcu (releaseBody_pending ..) (releaseBody_tcu ..)
  | fetch lane => exact renditionRequest_timeless h fun l r => .of_tcu (fetchBody_pending ..) (fetchBody_tcu ..)
  | fetchMaskFrame lane => exact renditionRequest_timeless h fun l r => .of_tcu (maskChecked_pending ..) (maskChecked_tcu ..)
  | fetchMaskSince lane => exact renditionRequest_timeless h fun l r => .of_tcu (maskChecked_pending ..) (maskChecked_tcu ..)
  | subscribe lane => exact renditionRequest_timeless h fun l r => .of_tcu (subscribeBody_pending ..) (subscribeBody_tcu ..)
  | openWaitDeadline x => exact execOpenWaitDeadline_timeless h
  | claimWaitDeadline l => exact execClaimWaitDeadline_timeless h
  | ingestBurstComplete => exact execIngestBurstComplete_timeless h
  | detectorRowBurstComplete => exact execDetectorRowBurstComplete_timeless h
  | bandBurstComplete => exact execBandBurstComplete_timeless h
  | transmitRecord lane part => exact execTransmitRecord_timeless h
  | periodEvent => exact execPeriodEvent_timeless h
  | refreshComplete => exact execRefreshComplete_timeless h
  | cadenceExpiry x => exact execCadenceExpiry_timeless h
  | cueEdge e => exact execCueEdge_timeless h
  | spacingHoldEnd => exact execSpacingHoldEnd_timeless h
  | cueAgeExpiry => exact execCueAgeExpiry_timeless h
  | markerPulseEnd pin => exact execMarkerPulseEnd_timeless h

/-- A start-up reset sets the time counter to 0, and keeps the queue and the DRAM's bytes (R143, R195). -/
theorem exec_isStartUp {c : Instr} {s t : State} (h : exec c s = .next t) (hc : isStartUp c = true) :
    t.pending = s.pending ∧ t.tcu.time = 0 ∧ t.mem = s.mem := by
  cases c with
  | powerOnReset | boardReset => cases h; exact ⟨rfl, rfl, rfl⟩
  | _ => cases hc

/-- A byte that completes a management frame performs no end of a burst, so the DRAM's only writer is the row itself (R8, R35). -/
theorem exec_mem {c : Instr} {s t : State} (h : exec c s = .next t) (hs : isStartUp c = false) (hc : c ≠ .ingestBurstComplete) :
    t.mem = s.mem := by
  rcases (exec_settings h hs).mem_kept with e | e
  · exact absurd (performed_eq e rfl) hc
  · exact e

/-- Settles O2: a start-up reset sets the time counter to 0, and every other command is `Timeless` and keeps the DRAM but for the end of
an ingest burst. -/
theorem queueTimeAndMemoryKeepers : Obligations.QueueTimeAndMemoryKeepers := by
  intro c s t h
  cases hs : isStartUp c with
  | true =>
    obtain ⟨hp, ht, hm⟩ := exec_isStartUp h hs
    exact ⟨hp, ht, fun _ => hm⟩
  | false =>
    obtain ⟨hp, ht⟩ := exec_timeless h hs
    exact ⟨hp, ht, exec_mem h hs⟩

end Sys2Proof.Machine
end

section
/-! O39: the chapter decision and its record. -/

namespace Sys2Proof.Machine

/-! ### The chapter decision -/

/-- No chapter is decided for a source whose chapters are off, nor for a frame that is not SCENE (R158). -/
theorem chapterDecision_ineligible {u : ChapterUnit} {cls : FrameClass} (h : ¬ (u.enabled = true ∧ cls = .scene))
    (flags : FrameFlags) (n : FrameNo) : chapterDecision u cls flags n = none := by
  have hguard : (!u.enabled || decide (cls ≠ .scene)) = true := by
    rw [Bool.or_eq_true, Bool.not_eq_true', decide_eq_true_eq, ← Bool.not_eq_true]
    exact not_and_or.mp h
  exact if_pos hguard

/-- For a SCENE frame of a source whose chapters are on, FIRST comes before CUE, and CUE before the gap (R158). -/
theorem chapterDecision_eligible {u : ChapterUnit} {cls : FrameClass} (h : u.enabled = true ∧ cls = .scene)
    (flags : FrameFlags) (n : FrameNo) : chapterDecision u cls flags n =
      if flags.first then some .first
      else if flags.cue then some .cue
      else match u.last with
        | none => some .scene
        | some m => if u.gap ≤ (n - m).toNat then some .scene else none := by
  obtain ⟨hon, rfl⟩ := h
  have hguard : ¬ (!u.enabled || decide (FrameClass.scene ≠ .scene)) = true := by rw [hon]; decide
  exact if_neg hguard

/-- With neither flag set, the last-chapter frame and the gap decide (R158 step 4). -/
theorem chapterDecision_plain {u : ChapterUnit} {cls : FrameClass} {flags : FrameFlags} (h : u.enabled = true ∧ cls = .scene)
    (hfirst : flags.first = false) (hcue : flags.cue = false) (n : FrameNo) : chapterDecision u cls flags n =
      match u.last with
        | none => some .scene
        | some m => if u.gap ≤ (n - m).toNat then some .scene else none := by
  rw [chapterDecision_eligible h, hfirst, hcue]
  rfl

/-! ### The chapter record -/

/-- A log with room takes the record under the next sequence number (R159, R161). -/
theorem recordChapter_room {c : Router} (h : c.log.length < 64) (f : SealedFrame) (changed active : Nat) (why : ChapterReason) :
    recordChapter c f changed active why = { c with
      chapters := c.chapters.set f.source { c.chapters.get f.source with last := some f.number }
      log := c.log ++ [{ seq := c.nextSeq, source := f.source, frame := f.number, pts := f.pts, arrival := f.arrival,
                         changed := changed, active := active, reason := why }]
      nextSeq := c.nextSeq + 1 } := if_pos h

/-- A full log counts an overflow, and the last-chapter frame still moves (R159, R161). -/
theorem recordChapter_full {c : Router} (h : 64 ≤ c.log.length) (f : SealedFrame) (changed active : Nat) (why : ChapterReason) :
    recordChapter c f changed active why = { c with
      chapters := c.chapters.set f.source { c.chapters.get f.source with last := some f.number }
      overflows := satAdd c.overflows 1 } := if_neg (Nat.not_lt.mpr h)

/-- Settles O39: the decision by the source's setting and the class, the flags and the gap; the record by the room in the log. -/
theorem chapterDecisionAndRecord : Obligations.ChapterDecisionAndRecord := by
  refine ⟨fun u cls flags n => ?_, fun c f changed active why =>
    ⟨fun h => recordChapter_room h f changed active why, fun h => recordChapter_full h f changed active why⟩⟩
  refine ⟨fun h => chapterDecision_ineligible h flags n, fun h hfirst => ?_, fun h hfirst hcue => ?_, fun h hfirst hcue => ?_,
    fun h hfirst hcue => ?_⟩
  · rw [chapterDecision_eligible h, if_pos hfirst]
  · rw [chapterDecision_eligible h, hfirst, hcue]
    rfl
  · rw [chapterDecision_plain h hfirst hcue]
    cases u.last with
    | none => exact fun _ => rfl
    | some m => exact fun hgap => if_pos hgap
  · rw [chapterDecision_plain h hfirst hcue]
    cases u.last with
    | none => exact fun hgap => absurd trivial hgap
    | some m => exact fun hgap => if_neg hgap

end Sys2Proof.Machine
end

section
/-! O50: what POP_CHAPTERS and READ_MARKERS take and return. -/

namespace Sys2Proof.Machine

open Sys2Proof Sys2Proof.Claims

/-! ### The layouts of what is returned -/

/-- A marker entry has the layout of a MARKER notice (R184). -/
theorem markerBytes_eq (m : MarkerEntry) : markerBytes m =
    [3, BitVec.ofNat 8 ((if m.overrun then 1 else 0) + (if m.event.frame.isSome then 2 else 0)),
      match m.event.source with
      | some x => BitVec.ofNat 8 (srcNum x)
      | none => 255] ++ beBytes 4 ((m.event.frame.map BitVec.toNat).getD 0) ++
    [0, 0, 0, 0, BitVec.ofNat 8 m.channel, BitVec.ofNat 8 (eventNum m.event.kind)] := by
  have hnotice : markerBytes m = noticePayload m.overrun (.marker m.channel m.event) := rfl
  rw [hnotice, markerNotice_bytes]
  rcases m.event.source with _ | _ | _ <;> rfl

/-- The entries after the first place are returned with the indicator clear (R167). -/
theorem map_clear_eq_zipIdx (overrun : Bool) (es : List MarkerEntry) (k : Nat) :
    es.map (fun e => { e with overrun := false }) =
      (es.zipIdx (k + 1)).map fun p => { p.1 with overrun := if p.2 = 0 then overrun else false } := by
  induction es generalizing k with
  | nil => rfl
  | cons e es ih => rw [List.zipIdx_cons, List.map_cons, List.map_cons, ih (k + 1), if_neg (Nat.succ_ne_zero k)]

/-- By its place, each entry returned: the one at place 0 carries the indicator (R167). -/
theorem returnedMarkers_eq_zipIdx (overrun : Bool) (es : List MarkerEntry) : returnedMarkers overrun es =
    es.zipIdx.map fun p => { p.1 with overrun := if p.2 = 0 then overrun else false } := by
  cases es with
  | nil => rfl
  | cons e es =>
    rw [returnedMarkers, List.zipIdx_cons, List.map_cons, map_clear_eq_zipIdx overrun es 0]
    rfl

/-! ### The two commands -/

/-- A count byte asks for no more than 16, and no more than there is (R162, R167). -/
theorem popCount_byte (count : Byte) (n : Nat) : min (min (field [count] 0 1) Config.popLimit) n = min (min count.toNat 16) n :=
  congrArg (fun k => min (min k 16) n) (beNat_single count)

theorem replyPopChapters_eq (count : Byte) (s : State) : replyPopChapters [count] s =
    (let n := min (min count.toNat 16) s.clr.log.length
    done (BitVec.ofNat 8 n :: BitVec.ofNat 8 (s.clr.log.length - n) :: (s.clr.log.take n).flatMap chapterBytes)
      { s with clr := { s.clr with log := s.clr.log.drop n } }) := by
  rw [replyPopChapters, popCount_byte]
  rfl

theorem replyReadMarkers_eq (count : Byte) (s : State) : replyReadMarkers [count] s =
    (let n := min (min count.toNat 16) s.clr.markers.length
    done (BitVec.ofNat 8 n :: BitVec.ofNat 8 (s.clr.markers.length - n) :: (s.clr.markers.take n).zipIdx.flatMap fun p =>
        markerBytes { p.1 with overrun := if p.2 = 0 then s.clr.markerOverrun else false })
      { s with clr := { s.clr with
        markers := s.clr.markers.drop n
        markerOverrun := if n = 0 then s.clr.markerOverrun else false } }) := by
  rw [replyReadMarkers, popCount_byte]
  dsimp only
  rw [returnedMarkers_eq_zipIdx, List.flatMap_map]
  rfl

/-- ATTN is asserted exactly while the marker queue holds an entry (R166). -/
theorem attnAsserted_iff {s : State} : attnAsserted s = true ↔ s.clr.markers ≠ [] := by
  rw [attnAsserted, Bool.not_eq_true', ← Bool.not_eq_true, List.isEmpty_iff]

/-- Settles O50: each command by what it takes from the head and the layout it returns it in, and ATTN by the marker queue. -/
theorem popChaptersAndReadMarkers : Obligations.PopChaptersAndReadMarkers := by
  refine fun s count h => ⟨?_, ?_, attnAsserted_iff⟩
  · exact takeCommand_done h ((ofLength_of_eq rfl _ _).trans (replyPopChapters_eq ..)) rfl
  · have hreply := replyReadMarkers_eq count (framed 35 [count] s)
    simp only [markerBytes_eq] at hreply
    exact takeCommand_done h ((ofLength_of_eq rfl _ _).trans hreply) rfl

end Sys2Proof.Machine
end

section
/-! O14: when a run of bytes is a good record. -/

namespace Sys2Proof.Machine

open Sys2Proof Sys2Proof.Claims

/-! ### Reading a record back -/

theorem beNat_three (a b c : Byte) : beNat [a, b, c] = a.toNat * 65536 + two b c := by
  simp only [beNat, two, List.foldl_cons, List.foldl_nil]
  omega

/-- A run of at least seven bytes has five bytes of header, a payload and two bytes of CRC, and is good exactly when its length
field and its CRC say so (R173). -/
theorem goodRecord_body (kind tag l2 l1 l0 c1 c0 : Byte) (payload : List Byte) :
    goodRecord ((kind :: tag :: l2 :: l1 :: l0 :: payload) ++ [c1, c0]) =
      if l2.toNat * 65536 + two l1 l0 = payload.length ∧ payload.length ≤ 196609 ∧
          two c1 c0 = (crc16 (kind :: tag :: l2 :: l1 :: l0 :: payload)).toNat then
        some { kind := kind, tag := tag, payload := payload }
      else none := by
  set body := kind :: tag :: l2 :: l1 :: l0 :: payload
  have hbodylen : body.length = payload.length + 5 := rfl
  have hlen : (body ++ [c1, c0]).length = payload.length + 7 := by rw [List.length_append, hbodylen]; rfl
  have hcrc : field (body ++ [c1, c0]) (payload.length + 5) 2 = two c1 c0 := by
    rw [field, ← hbodylen, List.drop_left]
    exact beNat_pair c1 c0
  have htake : (body ++ [c1, c0]).take (payload.length + 5) = body := by rw [← hbodylen, List.take_left]
  have hfield : field (body ++ [c1, c0]) 2 3 = l2.toNat * 65536 + two l1 l0 := beNat_three l2 l1 l0
  have hpayload : ((body ++ [c1, c0]).drop 5).take payload.length = payload := List.take_left
  simp only [goodRecord, hlen, Nat.add_sub_cancel, Nat.reduceSubDiff, hcrc, htake, hfield, hpayload, Nat.le_add_left, true_and]
  rfl

/-- A run of fewer than seven bytes has no room for a header and a CRC (R173). -/
theorem goodRecord_short {bytes : List Byte} (h : bytes.length < 7) : goodRecord bytes = none :=
  if_neg fun hgood => absurd hgood.1 (Nat.not_le.mpr h)

/-- A sealed record reads back as its request: its length field and its CRC are spelled from what they are compared with. -/
theorem goodRecord_sealRecord (kind tag : Byte) {payload : List Byte} (h : payload.length ≤ 196609) :
    goodRecord (sealRecord kind tag payload) = some { kind := kind, tag := tag, payload := payload } := by
  have hlength : beNat (beBytes 3 payload.length) = payload.length := by rw [beNat_beBytes, Nat.mod_eq_of_lt (by omega)]
  have hcrc (c : BitVec 16) : beNat (beBytes 2 c.toNat) = c.toNat := (beNat_beBytes ..).trans (Nat.mod_eq_of_lt c.isLt)
  rw [beBytes_three] at hlength
  rw [sealRecord, beBytes_three, beBytes_two]
  exact (goodRecord_body ..).trans
    (if_pos ⟨(beNat_three ..).symm.trans hlength, h, (beNat_pair ..).symm.trans (hcrc _)⟩)

/-- Settles O14: a sealed record reads back, and a run of bytes is good by its length field, its size and its CRC alone. -/
theorem goodRecordsReadBack : Obligations.GoodRecordsReadBack := by
  refine ⟨fun kind tag payload h => goodRecord_sealRecord kind tag h, fun kind tag l2 l1 l0 c1 c0 payload => ?_,
    fun bytes h => goodRecord_short h⟩
  dsimp only
  rw [goodRecord_body]
  split
  · next h => exact iff_of_true rfl h
  · next h => exact iff_of_false Bool.false_ne_true h

end Sys2Proof.Machine
end

section
/-! O51: frames that execute nothing, and the edges and bytes of a frame. -/

namespace Sys2Proof.Machine

open Sys2Proof Sys2Proof.Claims

/-! ### Commands refused for their length or code -/

theorem ofLength_of_ne {n : Nat} {p : List Byte} (h : p.length ≠ n) (r : Reply) (s : State) :
    ofLength n p r s = refuse .badArg s := if_neg h

/-- A payload of another length than the table's leaves the frame executed with BAD_ARG (R188). -/
theorem takeCommand_length {s : State} (h : s.rstnLow = false) {code : Byte} {p : List Byte} {n : Nat} {r : Reply}
    (hr : commandReply code p (framed code p s) = ofLength n p r (framed code p s)) (hn : p.length ≠ n) :
    takeCommand code p s = .next (executed code p .badArg [] s) :=
  takeCommand_refused h (hr.trans (ofLength_of_ne hn ..))

theorem field_one (p : List Byte) (i : Nat) : field p i 1 = (p.getD i 0).toNat := by
  induction p generalizing i with
  | nil => cases i <;> rfl
  | cons b p ih =>
    cases i with
    | zero => exact field_head b p
    | succ i => exact ih i

theorem badgeLineCount_eq (p : List Byte) : badgeLineCount p = min (p.getD 1 0).toNat 16 :=
  congrArg (min · 16) (field_one p 1)

theorem commandCodes_contains_eq_false {code : Byte} (h : code.toNat ∉ commandCodes) : commandCodes.contains code.toNat = false := by
  rw [← Bool.not_eq_true, List.contains_iff_mem]
  exact h

/-- The row of an unknown command runs the command only for a code outside the table (R188). -/
theorem execUnknownCommand_eq {code : Byte} (h : commandCodes.contains code.toNat = false) (p : List Byte) (s : State) :
    execUnknownCommand code p s = takeCommand code p s := by
  rw [execUnknownCommand, h]
  rfl

/-- A code outside the table leaves the frame executed with BAD_ARG (R188). -/
theorem execUnknownCommand_refused {s : State} (h : s.rstnLow = false) {code : Byte} (hc : code.toNat ∉ commandCodes)
    (p : List Byte) : execUnknownCommand code p s = .next (executed code p .badArg [] s) := by
  have hfalse := commandCodes_contains_eq_false hc
  rw [execUnknownCommand_eq hfalse]
  exact takeCommand_refused h (commandReply_unknown code p _ hfalse)

/-! ### The command a frame spells -/

/-- Each code of the table has its own row, the frame of that code. -/
theorem exec_commandOf_table (p : List Byte) (s : State) :
    ∀ n ∈ commandCodes, exec (commandOf (BitVec.ofNat 8 n) p) s = takeCommand (BitVec.ofNat 8 n) p s := by
  simp only [commandCodes, List.forall_mem_cons]
  exact ⟨rfl, rfl, rfl, rfl, rfl, rfl, rfl, rfl, rfl, rfl, rfl, rfl, rfl, rfl, rfl, rfl, rfl, rfl, rfl, nofun⟩

/-- The row of the command that a code and a payload spell is the frame of that code and payload. -/
theorem exec_commandOf (code : Byte) (p : List Byte) (s : State) : exec (commandOf code p) s = takeCommand code p s := by
  by_cases hc : code.toNat ∈ commandCodes
  · have htable := exec_commandOf_table p s code.toNat hc
    rwa [BitVec.ofNat_toNat, BitVec.setWidth_eq] at htable
  · have hfalse := commandCodes_contains_eq_false hc
    rw [commandOf_unknown hfalse]
    exact execUnknownCommand_eq hfalse p s

/-- A frame with fewer payload bytes than its length byte says is not complete (R187). -/
theorem frameComplete_eq_false {staged : List Byte} (h : ∀ code len rest, staged = code :: len :: rest → rest.length < len.toNat) :
    frameComplete staged = false := by
  match staged with
  | [] | [_] => rfl
  | code :: len :: rest => exact decide_eq_false (Nat.not_le.mpr (h code len rest rfl))

/-- A frame that is complete stays so with more bytes. -/
theorem frameComplete_append {staged : List Byte} (h : frameComplete staged = true) (bs : List Byte) :
    frameComplete (staged ++ bs) = true := by
  match staged with
  | [] | [_] => cases h
  | code :: len :: rest =>
    have hle : len.toNat ≤ rest.length := of_decide_eq_true h
    exact decide_eq_true (hle.trans (List.length_append.ge.trans' (Nat.le_add_right ..)))

theorem frameComplete_left_eq_false {staged bs : List Byte} (h : frameComplete (staged ++ bs) = false) : frameComplete staged = false := by
  rw [← Bool.not_eq_true] at h ⊢
  exact mt (frameComplete_append · bs) h

/-- The last byte of a command is the one that completes it (R187). -/
theorem frameComplete_dropLast {staged payload : List Byte} {b code len : Byte} (hs : staged ++ [b] = code :: len :: payload)
    (hlen : payload.length = len.toNat) : frameComplete staged = false := by
  refine frameComplete_eq_false fun c l rest e => ?_
  subst e
  obtain ⟨-, rfl, rfl⟩ : c = code ∧ l = len ∧ rest ++ [b] = payload := by simpa using hs
  rw [← hlen, List.length_append]
  exact Nat.lt_succ_self _

theorem frameComplete_of_length {payload : List Byte} {len : Byte} (code : Byte) (hlen : payload.length = len.toNat) :
    frameComplete (code :: len :: payload) = true := decide_eq_true hlen.ge

theorem frameCommand_of_length {payload : List Byte} {len : Byte} (code : Byte) (hlen : payload.length = len.toNat) :
    frameCommand (code :: len :: payload) = some (commandOf code payload) :=
  frameCommand_eq (frameComplete_of_length code hlen)

/-! ### The edges of CSN -/

theorem exec_move {s : State} (h : s.rstnLow = false) (m : Sys2Proof.FrameMove) :
    exec (.managementFrameCutOff m) s = .next (moveFrame m s) := by
  show Host.Outcome.next (if s.rstnLow = true then _ else _) = _
  rw [h]
  rfl

theorem frameFall_high {m : Mlu} (h : m.csnLow = false) :
    frameFall m = { m with csnLow := true, staging := [], frame := .receiving, result := none, sent := [] } := by
  rw [frameFall, h]
  rfl

theorem frameFall_low {m : Mlu} (h : m.csnLow = true) : frameFall m = m := if_pos h

theorem frameRise_low {m : Mlu} (h : m.csnLow = true) : frameRise m =
    { m with csnLow := false, frame := .idle, result := none, staging := if m.frame = .receiving then [] else m.staging } := by
  rw [frameRise, if_pos h]
  cases m.frame <;> rfl

theorem frameRise_high {m : Mlu} (h : m.csnLow = false) : frameRise m = m := by
  rw [frameRise, h]
  rfl

/-- A frame that is cut off before it is complete leaves the buffer empty and the frame IDLE (R187). -/
theorem moveFrame_whole {staged : List Byte} (h : frameComplete staged = false) (s : State) :
    moveFrame (.whole staged) s =
      { s with mlu := { s.mlu with csnLow := false, staging := [], frame := .idle, result := none, sent := [] } } := by
  rw [moveFrame, h, newFrame_eq, frameRise_low rfl]
  rfl

/-! ### The bytes of a frame -/

theorem clockByte_idle {s : State} (h : s.mlu.frame = .idle) (b : Byte) : clockByte b s = s := by
  simp only [clockByte, h]

theorem clockByte_receiving {s : State} (h : s.mlu.frame = .receiving) {b : Byte}
    (hc : frameComplete (s.mlu.staging ++ [b]) = false) :
    clockByte b s = { s with mlu := { s.mlu with staging := s.mlu.staging ++ [b] } } := by
  simp only [clockByte, h, hc, Bool.false_eq_true, if_false]

/-- The byte that completes a command has it executed as its row does, given that the frame is a new one (R187). -/
theorem exec_lastByte {s : State} (hr : s.rstnLow = false) (hf : s.mlu.frame = .receiving) (hlow : s.mlu.csnLow = true)
    (hres : s.mlu.result = none) (hsent : s.mlu.sent = []) {b code len : Byte} {payload : List Byte}
    (hs : s.mlu.staging ++ [b] = code :: len :: payload) (hlen : payload.length = len.toNat) :
    exec (.managementFrameCutOff (.byte b)) s = exec (commandOf code payload) s := by
  have hbyte : BitVec.ofNat 8 payload.length = len := by rw [hlen]; exact BitVec.ofNat_toNat ..
  have hframed : framed code payload s = { s with mlu := { s.mlu with staging := code :: len :: payload } } := by
    rw [framed, frameBytes, hbyte, ← hlow, ← hf, ← hres, ← hsent]
  have hclock : clockByte b s = closeFrame (frameBytes code payload) (commandReply code payload (framed code payload s)) := by
    rw [hframed, frameBytes, hbyte]
    simp only [clockByte, hf, hs, frameComplete_of_length code hlen, executeFrame, if_true]
  rw [exec_move hr, exec_commandOf, takeCommand_framed hr]
  exact congrArg _ hclock

/-- A byte clocked into the part, when the bytes before it have been taken. -/
def clockNext (o : Host.Outcome State Fault Refusal) (b : Byte) : Host.Outcome State Fault Refusal :=
  match o with
  | .next s => exec (.managementFrameCutOff (.byte b)) s
  | o => o

theorem clockNext_next {s : State} (h : s.rstnLow = false) (b : Byte) : clockNext (.next s) b = .next (clockByte b s) :=
  exec_move h (.byte b)

/-- The bytes of a frame that is not complete gather in the buffer (R187). -/
theorem clock_receiving {s : State} (hr : s.rstnLow = false) (hf : s.mlu.frame = .receiving) (bs : List Byte)
    (hc : frameComplete (s.mlu.staging ++ bs) = false) :
    bs.foldl clockNext (.next s) = .next { s with mlu := { s.mlu with staging := s.mlu.staging ++ bs } } := by
  induction bs generalizing s with
  | nil => rw [List.append_nil]; rfl
  | cons b bs ih =>
    rw [List.append_cons] at hc ⊢
    rw [List.foldl_cons, clockNext_next hr, clockByte_receiving hf (frameComplete_left_eq_false hc)]
    exact ih hr hf hc

/-- A new frame takes the bytes of a command, and performs the command's row (R187, R188). -/
theorem clock_command {s : State} (hr : s.rstnLow = false) {code len : Byte} {payload : List Byte}
    (hlen : payload.length = len.toNat) :
    (code :: len :: payload).foldl clockNext (.next { s with mlu := newFrame s.mlu }) = exec (commandOf code payload) s := by
  obtain ⟨front, b, hs⟩ := (List.eq_nil_or_concat' (code :: len :: payload)).resolve_left (List.cons_ne_nil _ _)
  have hfront : frameComplete front = false := frameComplete_dropLast hs.symm hlen
  have hclock := clock_receiving (s := { s with mlu := newFrame s.mlu }) hr (by rw [newFrame_eq]) front (by rwa [newFrame_eq])
  rw [hs, List.foldl_append, hclock, newFrame_eq]
  refine (exec_lastByte (by exact hr) rfl rfl rfl rfl hs.symm hlen).trans ?_
  rw [exec_commandOf, exec_commandOf, takeCommand_framed hr, takeCommand_framed (by exact hr)]
  rfl

/-! ### The result of a command -/

/-- Byte j sent after an execution: two of 0, the result code, the result data and 0 from there on (R188). -/
def answerByte (r : CommandResult) (j : Nat) : Byte :=
  if j < 2 then 0 else if j = 2 then BitVec.ofNat 8 (answerNum r.code) else r.data.getD (j - 3) 0

theorem resultByte_eq_answerByte {m : Mlu} {r : CommandResult} (h : m.result = some r) (j : Nat) :
    resultByte m j = answerByte r j := by
  rw [resultByte_eq h]
  match j with
  | 0 | 1 | 2 => rfl
  | j + 3 => rfl

/-- A byte clocked after the execution sends one byte more, and the frame is in RESULT once two are sent (R187, R188). -/
theorem clockByte_sending {s : State} (hf : s.mlu.frame = if s.mlu.sent.length < 2 then .executed else .result) (b : Byte) :
    clockByte b s = { s with mlu := { s.mlu with
      sent := s.mlu.sent ++ [resultByte s.mlu s.mlu.sent.length]
      frame := if s.mlu.sent.length + 1 < 2 then .executed else .result } } := by
  by_cases hn : s.mlu.sent.length < 2
  · rw [if_pos hn] at hf
    simp only [clockByte, hf]
  · rw [if_neg hn] at hf
    rw [if_neg (mt (Nat.lt_of_succ_lt ·) hn)]
    simp only [clockByte, hf]

/-- The part after n bytes of a result have been sent. -/
def answered (r : CommandResult) (n : Nat) (s : State) : State :=
  { s with mlu := { s.mlu with
    sent := (List.range n).map (answerByte r), frame := if n < 2 then .executed else .result } }

theorem answered_sent_length (r : CommandResult) (n : Nat) (s : State) : (answered r n s).mlu.sent.length = n :=
  (List.length_map ..).trans List.length_range

/-- After n bytes of a result, one byte clocked sends the next one. -/
theorem clockByte_answered {s : State} {r : CommandResult} (h : s.mlu.result = some r) (n : Nat) (b : Byte) :
    clockByte b (answered r n s) = answered r (n + 1) s := by
  have hbyte : resultByte (answered r n s).mlu n = answerByte r n := resultByte_eq_answerByte (by exact h) n
  have hrange : (List.range (n + 1)).map (answerByte r) = (List.range n).map (answerByte r) ++ [answerByte r n] := by
    rw [List.range_succ, List.map_append]
    rfl
  rw [clockByte_sending (by rw [answered_sent_length]; rfl), answered_sent_length, hbyte, answered, answered, hrange]

theorem answered_zero {s : State} (hf : s.mlu.frame = .executed) (hsent : s.mlu.sent = []) (r : CommandResult) :
    answered r 0 s = s := by
  show { s with mlu := { s.mlu with sent := [], frame := .executed } } = s
  rw [← hf, ← hsent]

/-- The bytes clocked after the execution send the result from its start (R186, R188). -/
theorem clock_answered {s : State} (hr : s.rstnLow = false) {r : CommandResult} (h : s.mlu.result = some r)
    (hf : s.mlu.frame = .executed) (hsent : s.mlu.sent = []) (bs : List Byte) :
    bs.foldl clockNext (.next s) = .next (answered r bs.length s) := by
  induction bs using List.reverseRecOn with
  | nil => exact congrArg _ (answered_zero hf hsent r).symm
  | append_singleton bs b ih =>
    rw [List.foldl_append, ih, List.length_append]
    show clockNext (.next (answered r bs.length s)) b = _
    rw [clockNext_next (by exact hr), clockByte_answered h]
    rfl

/-! ### The whole frame -/

/-- Settles O51: the refusals by the length and the code of a command, the single edges and bytes by the frame state, and the runs of
bytes by what gathers in the buffer and what is sent. -/
theorem framesAndTheirBytes : Obligations.FramesAndTheirBytes := by
  refine ⟨fun s p h => ?_, fun s h => ?_, ?_⟩
  · refine ⟨takeCommand_length h (commandReply_setPlan ..), takeCommand_length h (commandReply_setDetect ..),
      takeCommand_length h (commandReply_setSchedule ..), takeCommand_length h (commandReply_setRoute ..),
      takeCommand_length h (commandReply_setCue ..), takeCommand_length h (commandReply_setCadence ..),
      takeCommand_length h (commandReply_setChapters ..), takeCommand_length h (commandReply_setLaneLimits ..),
      takeCommand_length h (commandReply_attrWrite ..), takeCommand_length h (commandReply_attrRead ..),
      fun hn => takeCommand_length h (commandReply_badgeWrite ..) (by rwa [badgeLineCount_eq]),
      takeCommand_length h (commandReply_readStatus ..), takeCommand_length h (commandReply_readCounters ..),
      takeCommand_length h (commandReply_popChapters ..), takeCommand_length h (commandReply_readMarkers ..),
      takeCommand_length h (commandReply_readResetCause ..), takeCommand_length h (commandReply_clearResetCause ..),
      takeCommand_length h (commandReply_softReset ..), takeCommand_length h (commandReply_laneReset ..),
      fun code hc => execUnknownCommand_refused h hc p, fun hp => ?_⟩
    exact (exec_move h _).trans (congrArg _ (moveFrame_whole (frameComplete_eq_false hp) s))
  · refine ⟨fun hc => ?_, fun hc => ?_, fun b hf => ?_, fun b hf hc => ?_,
      fun b c len code payload hf hlow hres hsent hs hlen hc => ?_,
      fun code len payload hlen => ⟨commandOf code payload, frameCommand_of_length code hlen, rfl⟩, fun hc => ?_, fun hc => ?_⟩
    · rw [exec_move h, moveFrame, frameFall_high hc]
    · rw [exec_move h, moveFrame, frameFall_low hc]
    · rw [exec_move h, moveFrame, clockByte_idle hf]
    · rw [exec_move h, moveFrame, clockByte_receiving hf hc]
    · cases (hs ▸ hc).symm.trans (frameCommand_of_length code hlen)
      exact exec_lastByte h hf hlow hres hsent hs hlen
    · rw [exec_move h, moveFrame, frameRise_low hc]
    · rw [exec_move h, moveFrame, frameRise_high hc]
  · refine ⟨fun s code payload res data bs h => ?_, fun s c code len payload h hlen hc => ?_,
      fun s t staged h hhigh hc hfall => ?_⟩
    · exact clock_answered (s := executed code payload res data s) h rfl rfl rfl bs
    · cases hc.symm.trans (frameCommand_of_length code hlen)
      exact ⟨_, _, exec_move h _, exec_move (by exact h) _, clock_command h hlen⟩
    · rw [exec_move h, moveFrame, frameFall_high hhigh] at hfall
      cases hfall
      refine ⟨_, clock_receiving (by exact h) rfl staged hc, rfl, rfl, ?_⟩
      rw [exec_move (by exact h), exec_move h, moveFrame_whole hc, moveFrame, frameRise_low rfl]
      rfl

end Sys2Proof.Machine
end

section
/-! O5: the start-up state, and RSTN low. -/

namespace Sys2Proof.Machine

open Sys2Proof Sys2Proof.Claims

/-! ### The start-up state -/

/-- POWER_ON_RESET leaves the start-up state with POWER_ON alone set, and RSTN as it was (R194, R195). -/
def poweredOn (s : State) : State := { startUp s 1 with rstnLow := s.rstnLow }

theorem exec_powerOnReset (s : State) : exec .powerOnReset s = .next (poweredOn s) := rfl

theorem poweredOn_il (s : State) (x : Src) : (poweredOn s).il.get x = IngestLane.reset := reset_il x
theorem poweredOn_rl (s : State) (l : RLane) : (poweredOn s).rl.get l = RenditionLane.reset := reset_rl l
theorem poweredOn_link (s : State) (lane : Lane) : (poweredOn s).link lane = Link.reset := by
  cases lane with
  | il x => exact congrArg IngestLane.link (poweredOn_il s x)
  | rl l => exact congrArg RenditionLane.link (poweredOn_rl s l)

/-- Each of the 29 counters restarts at 0 (R42, R195). -/
theorem counterList_poweredOn (s : State) : counterList (poweredOn s) = List.replicate 29 0 := rfl

theorem quad_get {α : Type} (a : α) (l : RLane) : (PerRL.mk a a a a).get l = a := by cases l <;> rfl

/-- Every requester starts with the balance of a full allowance (R142). -/
theorem reset_balance (r : Requester) : State.reset.ms.balance.get r = 2 * State.reset.ms.schedule.allowance.get r := by
  rcases r with x | _ | l
  · cases x <;> rfl
  · rfl
  · cases l <;> rfl

/-! ### The fall of RSTN -/

/-- At the fall of RSTN an ingest lane's open frame, wait and row end with the work of its link (R195). -/
theorem halted_il {s t : State} (h : execRstnAsserted s = .next t) (x : Src) :
    t.il.get x = { s.il.get x with
      link := stopLink (s.il.get x).link, openFrame := none, pendingOpen := none, rowBuffer := none } := by
  cases h
  exact PerSource.get_map ..

/-- At the fall of RSTN a rendition lane's claim, fetch and band end with the work of its link (R195). -/
theorem halted_rl {s t : State} (h : execRstnAsserted s = .next t) (l : RLane) :
    t.rl.get l = { s.rl.get l with
      link := stopLink (s.rl.get l).link, pendingClaim := none, fetch := none, bandBuffer := none } := by
  cases h
  exact PerRL.get_map ..

theorem halted_link {s t : State} (h : execRstnAsserted s = .next t) (lane : Lane) : t.link lane = stopLink (s.link lane) := by
  cases lane with
  | il x => exact congrArg IngestLane.link (halted_il h x)
  | rl l => exact congrArg RenditionLane.link (halted_rl h l)

/-! ### While RSTN is low -/

theorem running_low {s : State} (h : s.rstnLow = true) (f : State → Host.Outcome State Fault Refusal) :
    running s f = .next s := if_pos h

/-- No management command is taken while RSTN is low (R187). -/
theorem takeCommand_low {s : State} (h : s.rstnLow = true) (code : Byte) (p : List Byte) : takeCommand code p s = .next s :=
  running_low h _

theorem ingestRequest_low {s : State} (h : s.rstnLow = true) (want : ReqKind) (lane : Lane)
    (body : Src → Request → State → State) : ingestRequest want lane body s = .next s := running_low h _

theorem renditionRequest_low {s : State} (h : s.rstnLow = true) (test : Request → Bool) (lane : Lane)
    (body : RLane → Request → State → State) : renditionRequest test lane body s = .next s := running_low h _

/-- Whatever its code, the row of an unknown command does nothing while RSTN is low. -/
theorem execUnknownCommand_low {s : State} (h : s.rstnLow = true) (code : Byte) (p : List Byte) :
    execUnknownCommand code p s = .next s := by
  unfold execUnknownCommand
  split
  · rfl
  · exact takeCommand_low h code p

/-- While RSTN is low the edges and bytes of a frame move nothing but the level of CSN (R187). -/
theorem exec_move_low {s : State} (h : s.rstnLow = true) (m : Sys2Proof.FrameMove) :
    exec (.managementFrameCutOff m) s = .next { s with mlu := followCsn m s.mlu } := congrArg _ (if_pos h)

/-- While RSTN is low a command other than the start-up resets, RSTN and the edges of CSN changes nothing (R195): the rows of a
management command and of a request are not taken, and neither are the part's own events. -/
theorem exec_low {c : Instr} {s : State} (h : s.rstnLow = true) (hstart : isStartUp c = false) (hrstn : c ≠ .rstnAsserted)
    (hfall : c ≠ .managementFrameCutOff .fall) (hrise : c ≠ .managementFrameCutOff .rise) : exec c s = .next s := by
  cases c with
  | powerOnReset | boardReset => cases hstart
  | rstnAsserted => exact absurd rfl hrstn
  | managementFrameCutOff m =>
    cases m with
    | fall => exact absurd rfl hfall
    | rise => exact absurd rfl hrise
    | whole staged | byte b => exact exec_move_low h _
  | unknownCommand code p => exact execUnknownCommand_low h code p
  | setPlan p | setDetect p | setSchedule p | setRoute p | setCue p | setCadence p | setChapters p | setLaneLimits p
  | attrWrite p | attrRead p | badgeWrite p | readStatus p | readCounters p | popChapters p | readMarkers p
  | readResetCause p | clearResetCause p | softReset p | laneReset p => exact takeCommand_low h _ p
  | openFrame lane | putRows lane | sealFrame lane | abandonFrame lane => exact ingestRequest_low h _ lane _
  | bind lane | unbind lane | claimNext lane | claimLatest lane | claimNumber lane | release lane | fetch lane
  | fetchMaskFrame lane | fetchMaskSince lane | subscribe lane => exact renditionRequest_low h _ lane _
  | linkTrainingComplete | linkLoss | recordReceived | malformedRequest | openWaitDeadline | claimWaitDeadline
  | ingestBurstComplete | detectorRowBurstComplete | bandBurstComplete | transmitRecord | periodEvent | refreshComplete
  | cadenceExpiry | cueEdge | spacingHoldEnd | cueAgeExpiry | markerPulseEnd => exact if_pos h

/-! ### The obligation -/

/-- Settles O5: the record of each unit of the start-up state, the lanes and units at the fall of RSTN, and each row while RSTN is
low. -/
theorem startUpAndRstn : Obligations.StartUpAndRstn := by
  refine ⟨fun s => ?startUp, fun s => ?fall, fun c s h => exec_low h, fun s h => ⟨exec_move_low h .fall, exec_move_low h .rise⟩⟩
  case startUp =>
    refine ⟨poweredOn s, startUp s (s.mlu.cause ||| causeBoard), exec_powerOnReset s, rfl, rfl, rfl, rfl, rfl, rfl, rfl, ?pool, ?links,
      ?ingest, ?rendition, ?counters, ?detector, ?attrTable, ?scheduler, ?timebase, ?router, ⟨rfl, rfl, rfl, rfl⟩⟩
    case pool => exact ⟨rfl, rfl, rfl, rfl, fun x => ⟨pair_get none x, pair_get 0 x⟩⟩
    case links => exact poweredOn_link s
    case ingest =>
      intro x
      rw [poweredOn_il]
      exact ⟨rfl, rfl, rfl, rfl⟩
    case rendition =>
      intro l
      rw [poweredOn_rl]
      exact ⟨rfl, rfl, rfl, rfl, rfl, rfl, rfl, rfl, rfl, rfl⟩
    case counters =>
      intro c hc
      rw [counterList_poweredOn] at hc
      exact List.eq_of_mem_replicate hc
    case detector =>
      exact ⟨rfl, rfl, fun x => ⟨pair_get true x, pair_get 0 x, pair_get 0 x, pair_get DetectSettings.reset x,
        pair_get tileTableReset x⟩⟩
    case attrTable => exact ⟨pair_get _, rfl⟩
    case scheduler =>
      exact ⟨rfl, rfl, rfl, rfl, rfl, rfl, rfl, rfl, fun r => ⟨reset_waiting r, reset_balance r⟩, pair_get 1000, rfl, quad_get 2000⟩
    case timebase => exact ⟨rfl, rfl, rfl, rfl, rfl, pair_get Cadence.reset⟩
    case router => exact ⟨rfl, rfl, rfl, rfl, rfl, rfl, rfl, rfl, pair_get ChapterUnit.reset⟩
  case fall =>
    obtain ⟨t, ht⟩ : ∃ t, execRstnAsserted s = .next t := ⟨_, rfl⟩
    refine ⟨t, ht, halted_rstnLow ht, fun lane => ?links, ?waitList, fun x => ?ingest, fun l => ?rendition, ?units⟩
    case links =>
      rw [halted_link ht]
      exact ⟨rfl, rfl, rfl⟩
    case ingest =>
      rw [halted_il ht]
      exact ⟨rfl, rfl⟩
    case rendition =>
      rw [halted_rl ht]
      exact ⟨rfl, rfl, rfl⟩
    all_goals cases ht
    case waitList => rfl
    case units => exact ⟨rfl, rfl, rfl, rfl, rfl, rfl, rfl, rfl, rfl, rfl, rfl⟩

end Sys2Proof.Machine
end
